-- ==== Sys2Proof/Word.lean ====
section
/-! DEFINITION. The word types of the CWF block: 8-bit bytes on the bus, 16-bit wire quantities
(00_scope.md R9) and the 32-bit words of a request descriptor (30_encoding.md R70). -/

namespace Sys2Proof

/-- A byte of a payload or of a bus write. -/
abbrev Byte := BitVec 8

/-- A 16-bit quantity: window coordinates, scroll offset, stored offsets, an RGB565 pixel (R9). -/
abbrev Half := BitVec 16

/-- A 32-bit word: `CW`, `AW` and `RSP_RESULT` (R70, R78). -/
abbrev Word := BitVec 32

/-- A rotation, a value in 0 to 3 (43_rotation.md R150, 10_state.md R26). -/
abbrev Rotation := BitVec 2

end Sys2Proof
end

