-- ==== Sys2Proof/Machine/Flags.lean ====
section
/-! DEFINITION. The block has no flags or condition codes (10_state.md R22). What it reports instead:
the status codes of a response (30_encoding.md R79) and the record of a transport failure
(60_exceptions.md R171). -/

namespace Sys2Proof.Machine

/-- The named response statuses (R79). The block raises the first four; the other three are reserved
for host software (R174). -/
inductive Status where
  | ok
  | transportError
  | configurationError
  | illegalRequest
  | boundsError
  | imageDecodeError
  | dimensionMismatchError
deriving DecidableEq, Repr

/-- The code of a status in the 8-bit `RSP_STATUS` (R79). -/
def statusCode : Status → Byte
  | .ok => 0
  | .transportError => 1
  | .configurationError => 2
  | .illegalRequest => 3
  | .boundsError => 4
  | .imageDecodeError => 5
  | .dimensionMismatchError => 6

/-- Where in a frame step the transport failed (R90, R171). -/
inductive Stage where
  | lineSet
  | write
deriving DecidableEq, Repr

/-- The stage bit of the failure record: 0 = the line-set failed, 1 = the write failed (R171). -/
def stageBit : Stage → Word
  | .lineSet => 0
  | .write => 1

/-- The failure record `zext_32(step) | (stage << 8)` (R90, R171). -/
def failureRecord (step : Nat) (stage : Stage) : Word :=
  (BitVec.ofNat 8 step).setWidth 32 ||| (stageBit stage <<< 8)

end Sys2Proof.Machine
end

