-- ==== Sys2Proof/Syntax.lean ====
section
/-! DEFINITION. The eight requests of the block (30_encoding.md R73, spec/opcode_table.json), with
their operands already assembled (R74). -/

namespace Sys2Proof

/-- A request, one constructor per row of spec/opcode_table.json, in the table's order. -/
inductive Instr where
  /-- SENDC, `send_command(bytes)` (40_framer.md R91). -/
  | sendc (payload : List Byte)
  /-- SENDD, `send_data(bytes)` (40_framer.md R92). -/
  | sendd (payload : List Byte)
  /-- CMD, `command(code)` (40_framer.md R93). -/
  | cmd (code : Byte)
  /-- DAT, `data(byte)` (40_framer.md R94). -/
  | dat (byte : Byte)
  /-- CVT, `rgba_to_565` with all four channels (42_color.md R130, 90_conflicts.md C4). -/
  | cvt (r8 g8 b8 a8 : Byte)
  /-- ROT, `set_rotation(r)`, `r` the whole 32-bit operand (43_rotation.md R155). -/
  | rot (r : Word)
  /-- SIZE, `size()` (43_rotation.md R161). -/
  | size
  /-- WIN, `set_window()` (41_window.md R110). -/
  | win
deriving DecidableEq, Repr

end Sys2Proof
end

