-- ==== Sys2Proof/WellFormed.lean ====
section
/-! DEFINITION. When a request can be written as a descriptor: a payload has at most 65535 bytes,
the largest value of the 16-bit `LEN` field (30_encoding.md R72, R73). -/

namespace Sys2Proof

/-- The largest payload a descriptor can carry (`LEN` is 16 bits, R72). -/
def maxPayload : Nat := 65535

/-- The request fits a descriptor. Only SENDC and SENDD carry a payload (R73). -/
def Instr.wellFormed : Instr → Bool
  | .sendc p => p.length ≤ maxPayload
  | .sendd p => p.length ≤ maxPayload
  | .cmd _ => true
  | .dat _ => true
  | .cvt _ _ _ _ => true
  | .rot _ => true
  | .size => true
  | .win => true

end Sys2Proof
end

