-- ==== Sys2Proof/Decode.lean ====
section
/-! DEFINITION. The request descriptor, its decoder and its encoder (30_encoding.md R70 to R77, R80).
The decoder is total: every descriptor is a request or is rejected by a named error. -/

namespace Sys2Proof

/-- A request descriptor (R70). -/
structure Descriptor where
  cw : Word
  aw : Word
  payload : List Byte
deriving DecidableEq, Repr

/-- `OP = CW[7:0]` (R72). -/
def Descriptor.op (d : Descriptor) : Byte := d.cw.extractLsb' 0 8

/-- `RSV = CW[15:8]`, must be 0 (R72). -/
def Descriptor.rsv (d : Descriptor) : Byte := d.cw.extractLsb' 8 8

/-- `LEN = CW[31:16]`, unsigned (R72). -/
def Descriptor.len (d : Descriptor) : Nat := (d.cw.extractLsb' 16 16).toNat

/-- A descriptor is well-formed only if `|P| = CW[31:16]` (R71). -/
def Descriptor.wellFormed (d : Descriptor) : Bool := d.payload.length == d.len

/-- How many bytes the descriptor takes, from `CW` alone: 4 of `CW`, 4 of `AW`, `LEN` of payload
(R77). -/
def Descriptor.byteLength (d : Descriptor) : Nat := 4 + 4 + d.len

/-- Why a descriptor is illegal, one name per check of R80 after the `LIVE` check. Each answers
`ILLEGAL_REQUEST` (R75, R76). -/
inductive DecodeError where
  /-- `CW[15:8] != 0`. -/
  | reservedNotZero
  /-- `OP` not in 0x01 to 0x08 (R76). -/
  | illegalOperation
  /-- `OP` in 0x03 to 0x08 and `LEN != 0`. -/
  | lengthNotZero
  /-- `OP` in 0x01, 0x02, 0x07, 0x08 and `AW != 0`. -/
  | argumentNotZero
  /-- `OP` in 0x03, 0x04 and `AW[31:8] != 0`. -/
  | argumentHighNotZero
deriving DecidableEq, Repr

/-- The operation numbers of R73. -/
def legalOps : List Byte := [0x01, 0x02, 0x03, 0x04, 0x05, 0x06, 0x07, 0x08]

/-- The operations whose `LEN` must be 0 (R73, R80). -/
def noPayloadOps : List Byte := [0x03, 0x04, 0x05, 0x06, 0x07, 0x08]

/-- The operations whose `AW` must be 0 (R73, R80). -/
def noArgumentOps : List Byte := [0x01, 0x02, 0x07, 0x08]

/-- The operations whose `AW[31:8]` must be 0 (R73, R80). -/
def byteArgumentOps : List Byte := [0x03, 0x04]

/-- Operand assembly (R74): the request of a descriptor whose `OP` is in the table of R73. -/
def assembleOperands (d : Descriptor) : Option Instr :=
  match d.op.toNat with
  | 0x01 => some (.sendc d.payload)
  | 0x02 => some (.sendd d.payload)
  | 0x03 => some (.cmd (d.aw.extractLsb' 0 8))
  | 0x04 => some (.dat (d.aw.extractLsb' 0 8))
  | 0x05 => some (.cvt (d.aw.extractLsb' 24 8) (d.aw.extractLsb' 16 8) (d.aw.extractLsb' 8 8)
      (d.aw.extractLsb' 0 8))
  | 0x06 => some (.rot d.aw)
  | 0x07 => some .size
  | 0x08 => some .win
  | _ => none

/-- The decode checks of R80 in their order, after the `LIVE` check, on the two words of a descriptor:
the first that applies. "No check reads the payload bytes." -/
def decodeCheck (cw aw : Word) : Option DecodeError :=
  let op : Byte := cw.extractLsb' 0 8
  if cw.extractLsb' 8 8 ≠ 0 then some .reservedNotZero
  else if op ∉ legalOps then some .illegalOperation
  else if op ∈ noPayloadOps ∧ cw.extractLsb' 16 16 ≠ 0 then some .lengthNotZero
  else if op ∈ noArgumentOps ∧ aw ≠ 0 then some .argumentNotZero
  else if op ∈ byteArgumentOps ∧ aw.extractLsb' 8 24 ≠ 0 then some .argumentHighNotZero
  else none

/-- The request of a descriptor, or the named error of the first check that rejects it (R80). -/
def decode (d : Descriptor) : Except DecodeError Instr :=
  match decodeCheck d.cw d.aw with
  | some e => .error e
  | none =>
    match assembleOperands d with
    | some i => .ok i
    | none => .error .illegalOperation

/-- `CW` from an operation number and a payload length: `LEN`, a zero `RSV`, `OP` (R72). -/
def controlWord (op : Byte) (len : Nat) : Word := BitVec.ofNat 16 len ++ (0 : Byte) ++ op

/-- The descriptor of a request (R73, R74, R81). -/
def encode : Instr → Descriptor
  | .sendc p => ⟨controlWord 0x01 p.length, 0, p⟩
  | .sendd p => ⟨controlWord 0x02 p.length, 0, p⟩
  | .cmd c => ⟨controlWord 0x03 0, (0 : BitVec 24) ++ c, []⟩
  | .dat b => ⟨controlWord 0x04 0, (0 : BitVec 24) ++ b, []⟩
  | .cvt r g b a => ⟨controlWord 0x05 0, r ++ g ++ b ++ a, []⟩
  | .rot r => ⟨controlWord 0x06 0, r, []⟩
  | .size => ⟨controlWord 0x07 0, 0, []⟩
  | .win => ⟨controlWord 0x08 0, 0, []⟩

/-- The `n` bytes of a number, least significant first. -/
def bytesOf : Nat → Nat → List Byte
  | 0, _ => []
  | n + 1, v => BitVec.ofNat 8 v :: bytesOf n (v / 256)

/-- The descriptor of an instruction word numbered as spec/opcode_table.json numbers it: `CW` in bits
31..0, then `AW` in bits 63..32, then the `LEN` payload bytes; every bit at or above `nbits` is 0.
DESIGN CHOICE (log 10): the spec gives the words no order among themselves. -/
def descriptorOfTableWord (nbits w : Nat) : Descriptor :=
  let v := w % 2 ^ nbits
  let cw : Word := BitVec.ofNat 32 v
  { cw := cw
    aw := BitVec.ofNat 32 (v / 2 ^ 32)
    payload := bytesOf (cw.extractLsb' 16 16).toNat (v / 2 ^ 64) }

/-- The request the decoder reads from a table word, none where it refuses it. -/
def decodeTableWord (nbits w : Nat) : Option Instr :=
  let d := descriptorOfTableWord nbits w
  if d.wellFormed then
    match decode d with
    | .ok i => some i
    | .error _ => none
  else none

end Sys2Proof
end

