-- ==== Sys2Proof/Config.lean ====
section
/-! DEFINITION. What an instantiation of the block fixes (00_scope.md R8), what the configuration
inputs carry at reset (10_state.md R24), and the free values: the OPEN parameters and the
transport's answers, opaque constants that no proof can look into. -/

namespace Sys2Proof

/-- The answer of one transaction: `ok` or `fail` (20_memory.md R55, R57). -/
inductive Reply where
  | ok
  | fail
deriving DecidableEq, Repr, Inhabited

/-- What the transport answers to one transaction: its reply and, should the transaction be a write
that fails, how many leading bytes it delivers (R55). A line-set uses the reply alone. -/
structure Answer where
  reply : Reply
  delivered : Nat
deriving DecidableEq, Repr, Inhabited

/-- The rotation that stands beside rotation 1 in `SCROLL_NZ`, "a set of exactly two rotations, and
it contains 1" (43_rotation.md R153): a value of this type IS such a set. -/
inductive ScrollPartner where
  | rot0
  | rot2
  | rot3
deriving DecidableEq, Repr, Inhabited

/-- `MADCTL_ROT[0..3]` and `MADCTL_BGR` (00_scope.md R8). -/
structure MadctlBytes where
  rot0 : Byte
  rot1 : Byte
  rot2 : Byte
  rot3 : Byte
  bgr : Byte
deriving DecidableEq, Repr, Inhabited

/-- The constraint of 43_rotation.md R152: `MADCTL_ROT[0]` and `MADCTL_ROT[1]` differ in at least
one bit outside `MADCTL_BGR`. -/
def MadctlBytes.distinct (m : MadctlBytes) : Bool :=
  ((m.rot0 ^^^ m.rot1) &&& ~~~m.bgr) != 0

/-- The parameters of 00_scope.md R8 that the block is instantiated with. -/
structure Params where
  /-- `MAX_XFER`, the longest write that can succeed (20_memory.md R56). -/
  maxXfer : Nat
  /-- `BUS_CLOCK_HZ`; no rule reads it (70_reset_and_hazards.md R201). -/
  busClockHz : Nat
  cmdCaset : Byte
  cmdRaset : Byte
  cmdRamwr : Byte
  cmdMadctl : Byte
  cmdVscsad : Byte
  madctl : MadctlBytes
  /-- `SCROLL_NZ` (43_rotation.md R153). -/
  scrollPartner : ScrollPartner
deriving DecidableEq, Repr

/-- The configuration inputs latched at reset (10_state.md R24, R36). -/
structure CfgInputs where
  w : Half
  h : Half
  bgr : Bool
  rowOff : Half
  colOff : Half
  dcPresent : Bool
  /-- `CFG_ROT_INIT`, used modulo 4 (R36). -/
  rotInit : Word
deriving DecidableEq, Repr

/-- `RAM_ROWS = 320`, the rows of the panel's internal buffer (20_memory.md R61; log 15). -/
def Config.ramRows : Nat := 320

/-- FREE VALUE (log 1): the transport's answers that nothing in the state has fixed, one per number
drawn. -/
opaque Config.transportAnswer : Nat → Answer

/-- FREE VALUE (log 6): `CMD_CASET`, OPEN in R8. -/
opaque Config.cmdCaset : Byte
/-- FREE VALUE (log 6): `CMD_RASET`, OPEN in R8. -/
opaque Config.cmdRaset : Byte
/-- FREE VALUE (log 6): `CMD_RAMWR`, OPEN in R8. -/
opaque Config.cmdRamwr : Byte
/-- FREE VALUE (log 6): `CMD_MADCTL`, OPEN in R8. -/
opaque Config.cmdMadctl : Byte
/-- FREE VALUE (log 6): `CMD_VSCSAD`, OPEN in R8. -/
opaque Config.cmdVscsad : Byte
/-- FREE VALUE (log 6): `BUS_CLOCK_HZ`, OPEN in R8. -/
opaque Config.busClockHz : Nat
/-- FREE VALUE (log 7): the addressing-mode bytes, OPEN in R8, before R152's constraint. -/
opaque Config.madctlDraw : MadctlBytes

/-- The reference addressing-mode bytes of 93_implementation_defined.md I3. PRESUMED there (general
knowledge); here only the stand-in for a draw that breaks R152 (log 7). -/
def Config.referenceMadctl : MadctlBytes :=
  { rot0 := 0xC0, rot1 := 0xA0, rot2 := 0x00, rot3 := 0x60, bgr := 0x08 }

/-- The addressing-mode bytes: any that meet R152 (log 7). -/
def Config.madctl : MadctlBytes :=
  if Config.madctlDraw.distinct then Config.madctlDraw else Config.referenceMadctl

/-- The parameters at `State.reset`: the OPEN ones free, `MAX_XFER` and `SCROLL_NZ` at the defaults
R8 gives (log 6). -/
def Config.params : Params :=
  { maxXfer := 4096
    busClockHz := Config.busClockHz
    cmdCaset := Config.cmdCaset
    cmdRaset := Config.cmdRaset
    cmdRamwr := Config.cmdRamwr
    cmdMadctl := Config.cmdMadctl
    cmdVscsad := Config.cmdVscsad
    madctl := Config.madctl
    scrollPartner := .rot0 }

/-- The configuration inputs of `State.reset`: the spec's own start state S240
(95_test_vectors.md). DESIGN CHOICE (log 5); `applyReset` takes any. -/
def Config.resetInputs : CfgInputs :=
  { w := 240, h := 240, bgr := false, rowOff := 0, colOff := 0, dcPresent := true, rotInit := 0 }

end Sys2Proof
end

