-- ==== Sys2Proof/Machine/Operands.lean ====
section
/-! DEFINITION. The operand forms: every value a request derives from its operand, the configuration
and the rotation, as pure functions (00_scope.md R11, 42_color.md R131 and R132, 43_rotation.md R151
to R154 and R160, 41_window.md R110, 70_reset_and_hazards.md R191). -/

namespace Sys2Proof.Machine

/-- `be16(v) = [v[15:8], v[7:0]]`, high byte first (R11, R54). -/
def be16 (v : Half) : List Byte := [v.extractLsb' 8 8, v.extractLsb' 0 8]

/-- "`r` is taken modulo 4": `AW[1:0]` (R74, R155); `CFG_ROT_INIT[1:0]` at reset (R36). -/
def rotationModFour (r : Word) : Rotation := r.extractLsb' 0 2

/-- `MADCTL_ROT[r]` (R8). -/
def madctlRot (m : MadctlBytes) (r : Rotation) : Byte :=
  match r.toNat with
  | 0 => m.rot0
  | 1 => m.rot1
  | 2 => m.rot2
  | _ => m.rot3

/-- `Madctl(r) = MADCTL_ROT[r] | (CFG_BGR = 1 ? MADCTL_BGR : 0x00)` (R151). -/
def madctl (m : MadctlBytes) (bgr : Bool) (r : Rotation) : Byte :=
  madctlRot m r ||| (if bgr then m.bgr else 0)

/-- The rotation a `ScrollPartner` names. -/
def scrollPartnerRotation : ScrollPartner → Rotation
  | .rot0 => 0
  | .rot2 => 2
  | .rot3 => 3

/-- `r ∈ SCROLL_NZ`: rotation 1 and its partner (R153). -/
def inScrollNz (p : ScrollPartner) (r : Rotation) : Bool :=
  r == 1 || r == scrollPartnerRotation p

/-- `Scroll(r) = (r ∈ SCROLL_NZ) ? (RAM_ROWS - CFG_W) : 0`, 16-bit, `CFG_W` unrotated (R153). -/
def scroll (p : ScrollPartner) (cfgW : Half) (r : Rotation) : Half :=
  if inScrollNz p r then BitVec.ofNat 16 Config.ramRows - cfgW else 0

/-- `Offsets(r)`, the pair `(ROW_OFF, COL_OFF)` (R154). -/
def offsets (cfgRowOff cfgColOff : Half) (r : Rotation) : Half × Half :=
  match r.toNat with
  | 0 => (cfgRowOff, cfgColOff)
  | 1 => (cfgColOff, cfgRowOff)
  | _ => (0, 0)

/-- `Size()`, the rotation-aware size `(W', H')` (R160). -/
def rotatedSize (cfgW cfgH : Half) (r : Rotation) : Half × Half :=
  if r = 0 ∨ r = 2 then (cfgW, cfgH) else (cfgH, cfgW)

/-- SIZE's result, `zext_32(W') << 16 | zext_32(H')` (R161). -/
def sizeResult (wh : Half × Half) : Word :=
  (wh.1.setWidth 32 <<< 16) ||| wh.2.setWidth 32

/-- The four range bytes of a window axis of extent `n`: `be16(0) ++ be16(n - 1)` (R110). -/
def rangeBytes (n : Half) : List Byte := be16 0 ++ be16 (n - 1)

/-- Channel expansion `v16 = v8 << 8 | v8` (R131). -/
def expandChannel (v : Byte) : Half := (v.setWidth 16 <<< 8) ||| v.setWidth 16

/-- The RGB565 packing of the expanded channels (R132). -/
def rgb565 (r8 g8 b8 : Byte) : Half :=
  (expandChannel r8 &&& 0xF800) ||| ((expandChannel g8 &&& 0xFC00) >>> 5)
    ||| ((expandChannel b8 &&& 0xF800) >>> 11)

/-- `1 ≤ n ≤ RAM_ROWS`, the bound of a panel dimension (R191). -/
def dimensionOk (n : Half) : Bool := 1 ≤ n.toNat && n.toNat ≤ Config.ramRows

/-- `ResetChecksPass()` on the latched configuration (R191). -/
def resetChecksPass (dcPresent : Bool) (w h : Half) : Bool :=
  dcPresent && dimensionOk w && dimensionOk h

end Sys2Proof.Machine
end

