-- ==== Sys2Proof/Machine/State.lean ====
section
/-! DEFINITION. The state of the block: every element of 10_state.md R23, the event trace (00_scope.md
R14), the parameters it is instantiated with (00_scope.md R8) and, as the model's own fields, what
the host and the transport do next; and the state right after reset (R36). -/

namespace Sys2Proof.Machine

/-- A level of the command-select line: low = command, high = data (20_memory.md R52). -/
inductive Level where
  | low
  | high
deriving DecidableEq, Repr

/-- The `DC` output latch: a known level, or `UNKNOWN` (10_state.md R28). -/
inductive Dc where
  | driven (level : Level)
  | unknown
deriving DecidableEq, Repr

/-- The request-port handshake (10_state.md R30). -/
inductive Phase where
  | idle
  | busy
deriving DecidableEq, Repr

/-- The color mode, hardwired to RGB565 (10_state.md R25). -/
inductive ColorMode where
  | rgb565
deriving DecidableEq, Repr

/-- An entry of the event trace (00_scope.md R14). -/
inductive Event where
  /-- `EvLine(level, outcome)`. -/
  | line (level : Level) (outcome : Reply)
  /-- `EvWrite(bs, delivered, outcome)`: `delivered` leading bytes of `bs` reached the bus. -/
  | write (bytes : List Byte) (delivered : Nat) (outcome : Reply)
deriving DecidableEq, Repr

/-- One action of the host at the block's inputs. -/
inductive PortInput where
  /-- The host issues a request (30_encoding.md R70). -/
  | request (d : Descriptor)
  /-- The reset input is asserted and released with the configuration inputs `c`, no request being in
  progress (70_reset_and_hazards.md R190). -/
  | reset (c : CfgInputs)
  /-- The host issues a request and the reset input is asserted after the first `n` transactions of
  it (R190: "abandons any request in progress without writing its response"; log 4). -/
  | interrupted (d : Descriptor) (n : Nat) (c : CfgInputs)
deriving DecidableEq, Repr

/-- The whole state. -/
structure State where
  /-- The parameters of R8; nothing writes them. -/
  par : Params
  /-- `CFG_W` (R23, R24). -/
  cfgW : Half
  /-- `CFG_H` (R23, R24). -/
  cfgH : Half
  /-- `CFG_BGR` (R23, R24). -/
  cfgBgr : Bool
  /-- `CFG_ROW_OFF` (R23, R24). -/
  cfgRowOff : Half
  /-- `CFG_COL_OFF` (R23, R24). -/
  cfgColOff : Half
  /-- `CFG_DC_PRESENT` (R23, R24). -/
  cfgDcPresent : Bool
  /-- `COLOR_MODE` (R23, R25). -/
  colorMode : ColorMode
  /-- `ROT` (R23, R26). -/
  rot : Rotation
  /-- `ROW_OFF` (R23, R27). -/
  rowOff : Half
  /-- `COL_OFF` (R23, R27). -/
  colOff : Half
  /-- `DC` (R23, R28). -/
  dc : Dc
  /-- `LIVE` (R23, R29). -/
  live : Bool
  /-- `PHASE` (R23, R30). -/
  phase : Phase
  /-- `RSP_STATUS`; none is the spec's `NONE`, "no response yet" (R31). -/
  rspStatus : Option Byte
  /-- `RSP_RESULT`; none is the spec's `NONE`, "no response yet" (R31). -/
  rspResult : Option Word
  /-- The event trace, oldest first (R14, R63). -/
  trace : List Event
  /-- The model's own: what the host does next, first first (log 8). -/
  port : List PortInput
  /-- The model's own: what the transport answers next, first first (log 1). -/
  answers : List Answer
  /-- The model's own: how many free answers have been drawn (log 1). -/
  draws : Nat
deriving DecidableEq, Repr

/-- Why the machine stops with a fault: never. The block has no trap mechanism (60_exceptions.md),
so this type has no constructor. -/
inductive Fault where
deriving DecidableEq, Repr

/-- Why the model refuses to go on. -/
inductive Refusal where
  /-- An instruction with no meaning yet; raised by no arm of `exec`. Safe. -/
  | notModelled (mnemonic : String)
  /-- The host offers a descriptor with `|P| ≠ CW[31:16]`; raised by `takeRequest`. Safe: the spec
  says a model refuses it at the port (30_encoding.md R71; log 9). -/
  | illFormedDescriptor
  /-- The host offers a request while `PHASE = BUSY`; raised by `takeRequest`. Safe: "The block accepts
  no request while BUSY" (10_state.md R30; 93_implementation_defined.md Part A; log 9). -/
  | portBusy
deriving DecidableEq, Repr

/-- The machine right after reset (10_state.md R36), with the configuration inputs of log 5, the
parameters of log 6 and nothing yet issued or answered (log 1, log 8). -/
def State.reset : State :=
  let c := Config.resetInputs
  let r := rotationModFour c.rotInit
  let o := offsets c.rowOff c.colOff r
  { par := Config.params
    cfgW := c.w
    cfgH := c.h
    cfgBgr := c.bgr
    cfgRowOff := c.rowOff
    cfgColOff := c.colOff
    cfgDcPresent := c.dcPresent
    colorMode := .rgb565
    rot := r
    rowOff := o.1
    colOff := o.2
    dc := .unknown
    live := resetChecksPass c.dcPresent c.w c.h
    phase := .idle
    rspStatus := none
    rspResult := none
    trace := []
    port := []
    answers := []
    draws := 0 }

end Sys2Proof.Machine
end

