-- ==== Sys2Proof/Machine/Ops.lean ====
section
/-! DEFINITION. The shared operations: the transport's answers (20_memory.md R55 to R57), the framer's
one step (40_framer.md R90), the response and the one way a request ends in an error
(60_exceptions.md R176), and reset (10_state.md R36, 70_reset_and_hazards.md R190). -/

namespace Sys2Proof.Machine

/-! ### The transport -/

/-- The answer the transport gives to the `k`-th transaction from now (0 for the next): the one the
state holds, or a free value where it holds none (R55, R57; log 1). -/
def answerAt (s : State) (k : Nat) : Answer :=
  match s.answers[k]? with
  | some a => a
  | none => Config.transportAnswer (s.draws + (k - s.answers.length))

/-- The state after `n` answers have been used. -/
def skipAnswers (n : Nat) (s : State) : State :=
  { s with answers := s.answers.drop n, draws := s.draws + (n - s.answers.length) }

/-- The `DC` latch after a line-set: the level when it succeeded, `UNKNOWN` when it failed
(10_state.md R28). -/
def dcAfter (level : Level) : Reply → Dc
  | .ok => .driven level
  | .fail => .unknown

/-- `LineSet(level)`: one transaction, its event, and the `DC` latch (R57, R90). -/
def lineSet (level : Level) (s : State) : State × Reply :=
  let o := (answerAt s 0).reply
  ({ skipAnswers 1 s with trace := s.trace ++ [.line level o], dc := dcAfter level o }, o)

/-- The outcome of a write of `bs` under an answer: a write longer than `MAX_XFER` always fails (R56),
any other as the transport says (R55). -/
def writeReply (maxXfer : Nat) (bs : List Byte) (a : Answer) : Reply :=
  if maxXfer < bs.length then .fail else a.reply

/-- How many leading bytes of `bs` reached the bus: all of them on `ok`, the answer's prefix of `bs`
on `fail` (R55; log 2). -/
def writeDelivered (bs : List Byte) (a : Answer) : Reply → Nat
  | .ok => bs.length
  | .fail => min a.delivered bs.length

/-- `BusWrite(bs)`: one transaction and its event (R55, R56). -/
def busWrite (bs : List Byte) (s : State) : State × Reply :=
  let a := answerAt s 0
  let o := writeReply s.par.maxXfer bs a
  ({ skipAnswers 1 s with trace := s.trace ++ [.write bs (writeDelivered bs a o) o] }, o)

/-! ### The framer's one step -/

/-- The write half of a frame step: none when `bs` is empty (R90). -/
def frameWrite (bs : List Byte) (step : Nat) (s : State) : State × Option Word :=
  if bs.isEmpty then (s, none)
  else
    match (busWrite bs s).2 with
    | .ok => ((busWrite bs s).1, none)
    | .fail => ((busWrite bs s).1, some (failureRecord step .write))

/-- `Frame(level, bs, step)` (R90): the state it leaves, and the failure record if it raises
`TRANSPORT_ERROR`. -/
def frame (level : Level) (bs : List Byte) (step : Nat) (s : State) : State × Option Word :=
  match (lineSet level s).2 with
  | .fail => ((lineSet level s).1, some (failureRecord step .lineSet))
  | .ok => frameWrite bs step (lineSet level s).1

/-- One frame step of a request's rule: the level and the bytes. -/
abbrev FrameStep := Level × List Byte

/-- The frame steps of a request in their order, numbered from `step`; the first failure ends them
(R90, R176). -/
def frames : List FrameStep → Nat → State → State × Option Word
  | [], _, s => (s, none)
  | f :: fs, step, s =>
    match frame f.1 f.2 step s with
    | (s', some rec) => (s', some rec)
    | (s', none) => frames fs (step + 1) s'

/-! ### The response and the request -/

/-- A request is accepted: `PHASE` becomes `BUSY` until its response is written (R30). -/
def accept (s : State) : State := { s with phase := .busy }

/-- `respond(status, result)`: the request ends, its response is written once and `PHASE` returns to
`IDLE` (R12, R30, R31, R78). -/
def respond (st : Status) (result : Word) (s : State) : State :=
  { s with phase := .idle, rspStatus := some (statusCode st), rspResult := some result }

/-- `raise E(info)`, the one way a request ends in an error: every state change made so far is kept,
the response is written, nothing else happens (R12, R176, R177). There is no return from an error:
it ends the request (R178). -/
def raiseError (st : Status) (info : Word) (s : State) : State := respond st info s

/-- The end of a request made of frame steps: `respond(OK, 0)`, or `TRANSPORT_ERROR` with the record
of the step that failed (R78, R90, R171). -/
def endFrames (r : State × Option Word) : State :=
  match r.2 with
  | none => respond .ok 0 r.1
  | some rec => raiseError .transportError rec r.1

/-- The body of a request made of frame steps alone. -/
def runFrames (fs : List FrameStep) (s : State) : State := endFrames (frames fs 0 s)

/-- Every request: accepted, then answered `CONFIGURATION_ERROR` with no other effect while
`LIVE = 0` (R29, R172), else executed by its own body (R80). -/
def runRequest (body : State → State) (s : State) : Host.Outcome State Fault Refusal :=
  .next (if s.live then body (accept s) else raiseError .configurationError 0 (accept s))

/-- An illegal descriptor, accepted and answered `ILLEGAL_REQUEST` (R75, R76, R173), behind the
`LIVE` check that precedes every decode check (R80, R175). -/
def rejectIllegal (s : State) : Host.Outcome State Fault Refusal :=
  runRequest (raiseError .illegalRequest 0) s

/-! ### Reset -/

/-- Reset (R36): the configuration inputs are latched, the checks set `LIVE`, and the rest takes its
reset value. No bus event is made (R192), the trace stays (R190), and the parameters and the other
agents are untouched. -/
def applyReset (c : CfgInputs) (s : State) : State :=
  { s with
    cfgW := c.w
    cfgH := c.h
    cfgBgr := c.bgr
    cfgRowOff := c.rowOff
    cfgColOff := c.colOff
    cfgDcPresent := c.dcPresent
    live := resetChecksPass c.dcPresent c.w c.h
    rot := rotationModFour c.rotInit
    rowOff := (offsets c.rowOff c.colOff (rotationModFour c.rotInit)).1
    colOff := (offsets c.rowOff c.colOff (rotationModFour c.rotInit)).2
    dc := .unknown
    phase := .idle
    rspStatus := none
    rspResult := none }

/-- The events that `after` made beyond `before`. -/
def newEvents (before after : State) : List Event := after.trace.drop before.trace.length

/-- A request that led from `before` to `after`, abandoned by a reset after its first `n`
transactions: those events stay in the trace, their answers are used, no response is written, and
the state is the reset state (R190; log 4). -/
def abandonAfter (n : Nat) (c : CfgInputs) (before after : State) : State :=
  let made := (newEvents before after).take n
  { applyReset c (skipAnswers made.length before) with trace := before.trace ++ made }

end Sys2Proof.Machine
end

