-- ==== Sys2Proof/Machine/Color.lean ====
section
/-! DEFINITION. The color converter CVT (42_color.md R130). -/

namespace Sys2Proof.Machine

/-- CVT: `respond(OK, zext_32(c))` with `c` the RGB565 packing; alpha is not read (R130, R134). -/
def execCvt (r8 g8 b8 _a8 : Byte) (s : State) : Host.Outcome State Fault Refusal :=
  runRequest (respond .ok ((rgb565 r8 g8 b8).setWidth 32)) s

end Sys2Proof.Machine
end

