-- ==== Sys2Proof/Machine/Framer.lean ====
section
/-! DEFINITION. The framer requests SENDC, SENDD, CMD and DAT (40_framer.md R91 to R94). -/

namespace Sys2Proof.Machine

/-- SENDC: `Frame(0, P, 0); respond(OK, 0)` (R91). -/
def execSendc (payload : List Byte) (s : State) : Host.Outcome State Fault Refusal :=
  runRequest (runFrames [(.low, payload)]) s

/-- SENDD: `Frame(1, P, 0); respond(OK, 0)` (R92). -/
def execSendd (payload : List Byte) (s : State) : Host.Outcome State Fault Refusal :=
  runRequest (runFrames [(.high, payload)]) s

/-- CMD: `Frame(0, [code], 0); respond(OK, 0)` (R93). -/
def execCmd (code : Byte) (s : State) : Host.Outcome State Fault Refusal :=
  runRequest (runFrames [(.low, [code])]) s

/-- DAT: `Frame(1, [byte], 0); respond(OK, 0)` (R94). -/
def execDat (byte : Byte) (s : State) : Host.Outcome State Fault Refusal :=
  runRequest (runFrames [(.high, [byte])]) s

end Sys2Proof.Machine
end

