-- ==== Sys2Proof/Machine/Rotation.lean ====
section
/-! DEFINITION. The rotation requests ROT and SIZE (43_rotation.md R155 and R161). -/

namespace Sys2Proof.Machine

/-- ROT's state writes, made before its first frame step (R155, R158). -/
def setRotation (q : Rotation) (s : State) : State :=
  { s with
    rot := q
    rowOff := (offsets s.cfgRowOff s.cfgColOff q).1
    colOff := (offsets s.cfgRowOff s.cfgColOff q).2 }

/-- ROT's frame steps for rotation `q`: the addressing-mode register, then the scroll-offset register
(R155, R156). -/
def rotFrames (q : Rotation) (s : State) : List FrameStep :=
  [(.low, [s.par.cmdMadctl]),
   (.high, [madctl s.par.madctl s.cfgBgr q]),
   (.low, [s.par.cmdVscsad]),
   (.high, be16 (scroll s.par.scrollPartner s.cfgW q))]

/-- ROT: set the rotation, then emit it (R155). -/
def execRot (r : Word) (s : State) : Host.Outcome State Fault Refusal :=
  runRequest (fun t => runFrames (rotFrames (rotationModFour r) t) (setRotation (rotationModFour r) t)) s

/-- The rotation-aware size of a state, `Size()` (R160). -/
def currentSize (s : State) : Half × Half := rotatedSize s.cfgW s.cfgH s.rot

/-- SIZE: `respond(OK, W' << 16 | H')`, no event (R161). -/
def execSize (s : State) : Host.Outcome State Fault Refusal :=
  runRequest (fun t => respond .ok (sizeResult (currentSize t)) t) s

end Sys2Proof.Machine
end

