-- ==== Sys2Proof/Machine/Window.lean ====
section
/-! DEFINITION. The addressing-window emitter WIN (41_window.md R110). -/

namespace Sys2Proof.Machine

/-- WIN's five frame steps: column range, row range, memory-write, over the rotation-aware size and
without the offsets (R110, R111, R112). -/
def winFrames (s : State) : List FrameStep :=
  [(.low, [s.par.cmdCaset]),
   (.high, rangeBytes (currentSize s).1),
   (.low, [s.par.cmdRaset]),
   (.high, rangeBytes (currentSize s).2),
   (.low, [s.par.cmdRamwr])]

/-- WIN: emit the full-extent window and begin a memory write (R110). -/
def execWin (s : State) : Host.Outcome State Fault Refusal :=
  runRequest (fun t => runFrames (winFrames t) t) s

end Sys2Proof.Machine
end

