-- ==== Sys2Proof/Machine/Dispatch.lean ====
section
/-! DEFINITION. One arm per request, each a direct call of its meaning. -/

namespace Sys2Proof.Machine

def exec (i : Instr) (s : State) : Host.Outcome State Fault Refusal :=
  match i with
  | .sendc payload => Sys2Proof.Machine.execSendc payload s
  | .sendd payload => Sys2Proof.Machine.execSendd payload s
  | .cmd code => Sys2Proof.Machine.execCmd code s
  | .dat byte => Sys2Proof.Machine.execDat byte s
  | .cvt r8 g8 b8 a8 => Sys2Proof.Machine.execCvt r8 g8 b8 a8 s
  | .rot r => Sys2Proof.Machine.execRot r s
  | .size => Sys2Proof.Machine.execSize s
  | .win => Sys2Proof.Machine.execWin s

end Sys2Proof.Machine
end

