-- ==== Sys2Proof/Machine/Port.lean ====
section
/-! DEFINITION. The block's inputs: how a request is taken at the port (30_encoding.md R71, R80;
10_state.md R30), how a reset is taken (70_reset_and_hazards.md R190), and how a request is placed
at the port. -/

namespace Sys2Proof.Machine

/-- A descriptor that the port has taken: its request is executed, or it is illegal (R80). -/
def execDescriptor (d : Descriptor) (s : State) : Host.Outcome State Fault Refusal :=
  match decode d with
  | .ok i => exec i s
  | .error _ => rejectIllegal s

/-- A request offered at the port: refused while `BUSY` (R30), refused if ill-formed (R71), else
taken. -/
def takeRequest (d : Descriptor) (s : State) : Host.Outcome State Fault Refusal :=
  match s.phase with
  | .busy => .refused .portBusy
  | .idle => if d.wellFormed then execDescriptor d s else .refused .illFormedDescriptor

/-- A request offered at the port that a reset abandons after its first `n` transactions (R190). -/
def takeInterrupted (d : Descriptor) (n : Nat) (c : CfgInputs) (s : State) :
    Host.Outcome State Fault Refusal :=
  match takeRequest d s with
  | .next s' => .next (abandonAfter n c s s')
  | .fault r => .fault r
  | .refused r => .refused r

/-- One action of the host; with none the block stays as it is (log 8). -/
def takeInput (s : State) : Host.Outcome State Fault Refusal :=
  match s.port with
  | [] => .next s
  | .request d :: rest => takeRequest d { s with port := rest }
  | .reset c :: rest => .next (applyReset c { s with port := rest })
  | .interrupted d n c :: rest => takeInterrupted d n c { s with port := rest }

/-- The state in which the host issues `d` next and the port is free to take it. -/
def placeRequest (d : Descriptor) (s : State) : State :=
  { s with port := .request d :: s.port, phase := .idle }

end Sys2Proof.Machine
end

