-- ==== Sys2Proof/Machine/Step.lean ====
section
/-! DEFINITION. One step: one action of the host at the block's inputs, a request being one step from
acceptance to response (log 3). -/

namespace Sys2Proof.Machine

/-- One step of the machine. -/
def step (s : State) : Host.Outcome State Fault Refusal := takeInput s

/-- `s` with the instruction word placed as the request the host issues next. -/
def State.withFetchWord (s : State) (nbits w : Nat) : State :=
  placeRequest (descriptorOfTableWord nbits w) s

end Sys2Proof.Machine
end

