-- ==== Sys2Proof/Machine/Asm.lean ====
section
/-! DEFINITION. The assembler (30_encoding.md R81) and the pseudo-instructions (R82): a line of text,
its mnemonic and operands, and the requests it stands for. -/

namespace Sys2Proof.Machine

/-- A parameter name that may stand for a byte operand (R81). -/
inductive ParamName where
  | caset
  | raset
  | ramwr
  | madctl
  | vscsad
deriving DecidableEq, Repr

/-- The value a parameter name stands for (R81, 00_scope.md R8). -/
def paramValue (p : Params) : ParamName → Byte
  | .caset => p.cmdCaset
  | .raset => p.cmdRaset
  | .ramwr => p.cmdRamwr
  | .madctl => p.cmdMadctl
  | .vscsad => p.cmdVscsad

/-- An operand as written: a number or a parameter name. -/
inductive AsmOperand where
  | num (n : Nat)
  | param (p : ParamName)
deriving DecidableEq, Repr

/-- The mnemonics of R81 and R82. -/
inductive AsmOp where
  | sendc
  | sendd
  | cmd
  | dat
  | cvt
  | rot
  | size
  | win
  | px
  | cmdd
  | caset
  | raset
  | ramwr
deriving DecidableEq, Repr

/-- One line: a mnemonic and its operands. -/
structure AsmLine where
  op : AsmOp
  operands : List AsmOperand
deriving DecidableEq, Repr

/-! ### Operands: "An operand out of its range does not assemble" (R81) -/

/-- A byte operand, 0 to 255 or a parameter name. -/
def byteOperand (p : Params) : AsmOperand → Option Byte
  | .num n => if n < 256 then some (BitVec.ofNat 8 n) else none
  | .param q => some (paramValue p q)

/-- A list of byte operands. -/
def byteOperands (p : Params) : List AsmOperand → Option (List Byte)
  | [] => some []
  | o :: os =>
    match byteOperand p o, byteOperands p os with
    | some b, some bs => some (b :: bs)
    | _, _ => none

/-- A 16-bit operand, a number. -/
def halfOperand : AsmOperand → Option Half
  | .num n => if n < 2 ^ 16 then some (BitVec.ofNat 16 n) else none
  | .param _ => none

/-- A 32-bit operand, a number. -/
def wordOperand : AsmOperand → Option Word
  | .num n => if n < 2 ^ 32 then some (BitVec.ofNat 32 n) else none
  | .param _ => none

/-! ### Pseudo-instructions (R82) -/

/-- `cvt r, g, b` is `cvt r, g, b, 0`. -/
def pseudoCvt (r g b : Byte) : List Instr := [.cvt r g b 0]

/-- `px c` is `sendd c[15:8], c[7:0]`. -/
def pseudoPx (c : Half) : List Instr := [.sendd (be16 c)]

/-- `cmdd c, b0, ...` is `cmd c` and then, if there are bytes, `sendd b0, ...`. -/
def pseudoCmdd (c : Byte) (bs : List Byte) : List Instr :=
  .cmd c :: (if bs.isEmpty then [] else [.sendd bs])

/-- `caset s, e` is `cmdd CMD_CASET, s[15:8], s[7:0], e[15:8], e[7:0]`. -/
def pseudoCaset (p : Params) (s e : Half) : List Instr := pseudoCmdd p.cmdCaset (be16 s ++ be16 e)

/-- `raset s, e` is `cmdd CMD_RASET, s[15:8], s[7:0], e[15:8], e[7:0]`. -/
def pseudoRaset (p : Params) (s e : Half) : List Instr := pseudoCmdd p.cmdRaset (be16 s ++ be16 e)

/-- `ramwr` is `cmd CMD_RAMWR`. -/
def pseudoRamwr (p : Params) : List Instr := [.cmd p.cmdRamwr]

/-! ### Assembling a line -/

/-- The requests of a list of instructions, none where one fits no descriptor. -/
def ifAllFit (is : List Instr) : Option (List Instr) :=
  if is.all Instr.wellFormed then some is else none

/-- The requests a line stands for, none where it does not assemble (R81, R82). -/
def assemble (p : Params) (l : AsmLine) : Option (List Instr) :=
  match l.op, l.operands with
  | .sendc, os => (byteOperands p os).bind fun bs => ifAllFit [.sendc bs]
  | .sendd, os => (byteOperands p os).bind fun bs => ifAllFit [.sendd bs]
  | .cmd, [c] => (byteOperand p c).map fun c => [.cmd c]
  | .dat, [b] => (byteOperand p b).map fun b => [.dat b]
  | .cvt, [r, g, b, a] =>
    match byteOperand p r, byteOperand p g, byteOperand p b, byteOperand p a with
    | some r, some g, some b, some a => some [.cvt r g b a]
    | _, _, _, _ => none
  | .cvt, [r, g, b] =>
    match byteOperand p r, byteOperand p g, byteOperand p b with
    | some r, some g, some b => some (pseudoCvt r g b)
    | _, _, _ => none
  | .rot, [n] => (wordOperand n).map fun r => [.rot r]
  | .size, [] => some [.size]
  | .win, [] => some [.win]
  | .px, [c] => (halfOperand c).map pseudoPx
  | .cmdd, c :: os =>
    match byteOperand p c, byteOperands p os with
    | some c, some bs => ifAllFit (pseudoCmdd c bs)
    | _, _ => none
  | .caset, [s, e] =>
    match halfOperand s, halfOperand e with
    | some s, some e => some (pseudoCaset p s e)
    | _, _ => none
  | .raset, [s, e] =>
    match halfOperand s, halfOperand e with
    | some s, some e => some (pseudoRaset p s e)
    | _, _ => none
  | .ramwr, [] => some (pseudoRamwr p)
  | _, _ => none

/-! ### Reading a line of text

White space is a space or a tab, letters are read as written, and an empty or comment-only line is no
request. DESIGN CHOICE (log 12): R81 says none of these. -/

/-- White space within a line. -/
def isBlank (c : Char) : Bool := c == ' ' || c == '\t'

/-- A text without the white space around it. -/
def trimText (cs : List Char) : List Char :=
  ((cs.dropWhile isBlank).reverse.dropWhile isBlank).reverse

/-- The pieces of a text between its commas. -/
def splitCommas : List Char → List (List Char)
  | [] => [[]]
  | c :: cs =>
    match splitCommas cs with
    | [] => [[c]]
    | w :: ws => if c == ',' then [] :: w :: ws else (c :: w) :: ws

/-- A digit of a hexadecimal number. -/
def hexDigit (c : Char) : Option Nat :=
  if '0' ≤ c ∧ c ≤ '9' then some (c.toNat - '0'.toNat)
  else if 'a' ≤ c ∧ c ≤ 'f' then some (c.toNat - 'a'.toNat + 10)
  else if 'A' ≤ c ∧ c ≤ 'F' then some (c.toNat - 'A'.toNat + 10)
  else none

/-- A digit of a number in base `base`. -/
def digitIn (base : Nat) (c : Char) : Option Nat :=
  match hexDigit c with
  | some d => if d < base then some d else none
  | none => none

/-- The number the digits of a text spell in base `base`, after the value `acc` of those before. -/
def digitsFrom (base : Nat) : Nat → List Char → Option Nat
  | acc, [] => some acc
  | acc, c :: cs =>
    match digitIn base c with
    | some d => digitsFrom base (acc * base + d) cs
    | none => none

/-- "numbers are decimal or `0x` hexadecimal" (R81). -/
def readNumber : List Char → Option Nat
  | [] => none
  | '0' :: 'x' :: c :: cs => digitsFrom 16 0 (c :: cs)
  | c :: cs => digitsFrom 10 0 (c :: cs)

/-- The parameter names of R81. -/
def readParam (cs : List Char) : Option ParamName :=
  if cs = ['C', 'M', 'D', '_', 'C', 'A', 'S', 'E', 'T'] then some .caset
  else if cs = ['C', 'M', 'D', '_', 'R', 'A', 'S', 'E', 'T'] then some .raset
  else if cs = ['C', 'M', 'D', '_', 'R', 'A', 'M', 'W', 'R'] then some .ramwr
  else if cs = ['C', 'M', 'D', '_', 'M', 'A', 'D', 'C', 'T', 'L'] then some .madctl
  else if cs = ['C', 'M', 'D', '_', 'V', 'S', 'C', 'S', 'A', 'D'] then some .vscsad
  else none

/-- One operand. -/
def readOperand (cs : List Char) : Option AsmOperand :=
  match readParam cs with
  | some q => some (.param q)
  | none => (readNumber cs).map .num

/-- The operands of a line, none where one cannot be read. -/
def readOperands : List (List Char) → Option (List AsmOperand)
  | [] => some []
  | w :: ws =>
    match readOperand (trimText w), readOperands ws with
    | some o, some os => some (o :: os)
    | _, _ => none

/-- The mnemonics of R81 and R82. -/
def readMnemonic (cs : List Char) : Option AsmOp :=
  if cs = ['s', 'e', 'n', 'd', 'c'] then some .sendc
  else if cs = ['s', 'e', 'n', 'd', 'd'] then some .sendd
  else if cs = ['c', 'm', 'd'] then some .cmd
  else if cs = ['d', 'a', 't'] then some .dat
  else if cs = ['c', 'v', 't'] then some .cvt
  else if cs = ['r', 'o', 't'] then some .rot
  else if cs = ['s', 'i', 'z', 'e'] then some .size
  else if cs = ['w', 'i', 'n'] then some .win
  else if cs = ['p', 'x'] then some .px
  else if cs = ['c', 'm', 'd', 'd'] then some .cmdd
  else if cs = ['c', 'a', 's', 'e', 't'] then some .caset
  else if cs = ['r', 'a', 's', 'e', 't'] then some .raset
  else if cs = ['r', 'a', 'm', 'w', 'r'] then some .ramwr
  else none

/-- A line's text before its comment ("`;` starts a comment", R81), without white space around it. -/
def lineText (cs : List Char) : List Char := trimText (cs.takeWhile fun c => c != ';')

/-- The requests a line of text stands for, and no answer where the line does not assemble (R81). A line
that is empty, or empty before its comment, assembles to no request. DESIGN CHOICE (log 12): R81 says
only "one line per descriptor". -/
def assembleText (p : Params) (cs : List Char) : Option (List Instr) :=
  let text := lineText cs
  if text.isEmpty then some []
  else
    let rest := trimText (text.dropWhile fun c => !isBlank c)
    match readMnemonic (text.takeWhile fun c => !isBlank c),
        readOperands (if rest.isEmpty then [] else splitCommas rest) with
    | some op, some os => assemble p ⟨op, os⟩
    | _, _ => none

/-- The descriptors of a program, a straight-line sequence of lines (95_test_vectors.md Part 3). -/
def assembleProgram (p : Params) : List (List Char) → Option (List Descriptor)
  | [] => some []
  | l :: ls =>
    match assembleText p l, assembleProgram p ls with
    | some is, some ds => some (is.map encode ++ ds)
    | _, _ => none

end Sys2Proof.Machine
end

