-- ==== Sys2Proof/Machine/Wire.lean ====
section
/-! DEFINITION. What the event trace says reached the panel (20_memory.md R52, R55; 00_scope.md R14),
and where the spec says the pixel data after a WIN lands (41_window.md R114). These read the trace;
no request reads them (10_state.md R33). -/

namespace Sys2Proof.Machine

/-- The bytes that events delivered, each with the state of the command-select line it was written
under, from a line state `dc` before the first event: low = command byte, high = data byte (R52). -/
def deliveredFrom : Dc → List Event → List (Dc × Byte)
  | _, [] => []
  | _, .line level .ok :: es => deliveredFrom (.driven level) es
  | _, .line _ .fail :: es => deliveredFrom .unknown es
  | dc, .write bs k _ :: es => (bs.take k).map (fun b => (dc, b)) ++ deliveredFrom dc es

/-- The bytes that reached the panel over a trace, the line being unknown before it (R36). -/
def delivered (es : List Event) : List (Dc × Byte) := deliveredFrom .unknown es

/-- The line state after a trace: the level of the last line-set, unknown if it failed or if there
was none (R57). -/
def lineFrom : Dc → List Event → Dc
  | dc, [] => dc
  | _, .line level .ok :: es => lineFrom (.driven level) es
  | _, .line _ .fail :: es => lineFrom .unknown es
  | dc, .write _ _ _ :: es => lineFrom dc es

/-- The pixels of a byte stream, two bytes each, high byte first (42_color.md R135). -/
def pixelsOf : List Byte → List Half
  | hi :: lo :: rest => (hi ++ lo) :: pixelsOf rest
  | _ => []

/-- Where the `n`-th pixel after a WIN of extent `(W', H')` lands: column `n mod W'`, row
`(n div W') mod H'` (R114; the wrap to row 0 is the spec's own reading, D29). -/
def pixelPosition (wh : Half × Half) (n : Nat) : Nat × Nat :=
  (n % wh.1.toNat, n / wh.1.toNat % wh.2.toNat)

/-- The pixels of a data stream with their positions, numbered from `n`. -/
def placeFrom (wh : Half × Half) : Nat → List Half → List ((Nat × Nat) × Half)
  | _, [] => []
  | n, c :: cs => (pixelPosition wh n, c) :: placeFrom wh (n + 1) cs

end Sys2Proof.Machine
end

