-- ==== Sys2Proof/Safety.lean ====
section
/-! DEFINITION. What counts as a proper state (10_state.md R35, 60_exceptions.md R170 and R171,
20_memory.md R55 to R57 and R64) and what the host owes the block (70_reset_and_hazards.md R196 to
R199), in the terms the statements use. -/

namespace Sys2Proof.Safety

open Sys2Proof.Machine

/-! ### Invariants of the state -/

/-- The invariants of 10_state.md R35, which hold while `LIVE = 1`. -/
abbrev configOk (s : State) : Prop :=
  s.live = true →
    1 ≤ s.cfgW.toNat ∧ s.cfgW.toNat ≤ Config.ramRows ∧
    1 ≤ s.cfgH.toNat ∧ s.cfgH.toNat ≤ Config.ramRows ∧
    s.cfgDcPresent = true ∧
    (s.rowOff, s.colOff) = offsets s.cfgRowOff s.cfgColOff s.rot

/-- The response registers hold `NONE` together, or a status the block reports (R170) with a result of
that status's form: a failure record of step 0 to 4 (R171), or 0 for the other two errors (R78). -/
abbrev responseOk (s : State) : Prop :=
  (s.rspStatus = none ∧ s.rspResult = none) ∨
  (∃ r, s.rspStatus = some (statusCode .ok) ∧ s.rspResult = some r) ∨
  (∃ k stage, k ≤ 4 ∧ s.rspStatus = some (statusCode .transportError) ∧
    s.rspResult = some (failureRecord k stage)) ∨
  (s.rspStatus = some (statusCode .configurationError) ∧ s.rspResult = some 0) ∨
  (s.rspStatus = some (statusCode .illegalRequest) ∧ s.rspResult = some 0)

/-- An event is a line-set followed by anything, or a write right after a line-set that succeeded
(R64, R90); `afterLine` says that the event before was such a line-set. -/
def writesFollowLines : Bool → List Event → Bool
  | _, [] => true
  | _, .line _ .ok :: es => writesFollowLines true es
  | _, .line _ .fail :: es => writesFollowLines false es
  | afterLine, .write _ _ _ :: es => afterLine && writesFollowLines false es

/-- A write event of 20_memory.md R55 and R56: never empty (40_framer.md R90); it delivered a prefix,
all of it when it succeeded, and it succeeded only within `MAX_XFER`. -/
def writeEventOk (maxXfer : Nat) : Event → Bool
  | .line _ _ => true
  | .write bs k .ok => !bs.isEmpty && k == bs.length && bs.length ≤ maxXfer
  | .write bs k .fail => !bs.isEmpty && k ≤ bs.length

/-- The event trace is one the framer can make. -/
abbrev traceOk (s : State) : Prop :=
  writesFollowLines false s.trace = true ∧ s.trace.all (writeEventOk s.par.maxXfer) = true

/-- The `DC` latch is unknown or at the level of the last line-set of the trace (R28, R177). -/
abbrev dcOk (s : State) : Prop := s.dc = .unknown ∨ s.dc = lineFrom .unknown s.trace

/-! ### The transport and the trace, as statements speak of them -/

/-- The transport answers `ok` to each of the next `n` transactions. -/
abbrev transportOk (n : Nat) (s : State) : Prop := ∀ k, k < n → (answerAt s k).reply = .ok

/-- The reply an event records is that of the answer `a`, or `fail` for a write over `MAX_XFER` (R55 to
R57; that such a write has an answer too is log 20). -/
def answeredBy (maxXfer : Nat) (a : Answer) : Event → Bool
  | .line _ o => o == a.reply
  | .write bs _ o => o == if maxXfer < bs.length then .fail else a.reply

/-- The events of a frame step of at least one byte whose two transactions succeed (R90). -/
def okEvents (f : FrameStep) : List Event := [.line f.1 .ok, .write f.2 f.2.length .ok]

/-- The frame steps of a request's rule, none for CVT and SIZE (R91 to R94, R110, R155). -/
def frameStepsOf (s : State) : Instr → List FrameStep
  | .sendc p => [(.low, p)]
  | .sendd p => [(.high, p)]
  | .cmd c => [(.low, [c])]
  | .dat b => [(.high, [b])]
  | .rot r => rotFrames (rotationModFour r) s
  | .win => winFrames s
  | .cvt _ _ _ _ => []
  | .size => []

/-- The state a request's frame steps start from: ROT has written its registers (R155, R158). -/
def beforeFrames (s : State) : Instr → State
  | .rot r => setRotation (rotationModFour r) s
  | .sendc _ => s
  | .sendd _ => s
  | .cmd _ => s
  | .dat _ => s
  | .win => s
  | .cvt _ _ _ _ => s
  | .size => s

/-- The requests run one after another, each from the state the one before left (10_state.md R21). -/
def execAll : List Instr → State → Host.Outcome State Fault Refusal
  | [], s => .next s
  | i :: is, s =>
    match exec i s with
    | .next t => execAll is t
    | .fault r => .fault r
    | .refused r => .refused r

/-! ### What the host owes the block -/

/-- No payload over `MAX_XFER` (R197). -/
def chunkBounded (maxXfer : Nat) : Instr → Bool
  | .sendc p => p.length ≤ maxXfer
  | .sendd p => p.length ≤ maxXfer
  | .cmd _ => true
  | .dat _ => true
  | .cvt _ _ _ _ => true
  | .rot _ => true
  | .size => true
  | .win => true

/-- The payload of a data request. -/
def dataPayload : Instr → Option (List Byte)
  | .sendd p => some p
  | .dat b => some [b]
  | .sendc _ => none
  | .cmd _ => none
  | .cvt _ _ _ _ => none
  | .rot _ => none
  | .size => none
  | .win => none

/-- A request that extends the memory write WIN began: a data write (R199). -/
def extendsMemoryWrite (i : Instr) : Bool := (dataPayload i).isSome

/-- The requests of one pixel stream after WIN: SENDD requests of at most `MAX_XFER` bytes whose
payloads concatenate to the pixels' bytes, "chunked but never truncated or padded" (R197, R199). -/
abbrev pixelStream (maxXfer : Nat) (pixels : List Half) (is : List Instr) : Prop :=
  (∀ i ∈ is, ∃ p, i = .sendd p ∧ p.length ≤ maxXfer) ∧
  is.flatMap (fun i => (dataPayload i).getD []) = pixels.flatMap be16

/-- No data is streamed after a ROT before another WIN (R198); `fresh` says that the last of them so
far was a WIN. -/
def windowFresh : Bool → List Instr → Bool
  | _, [] => true
  | _, .win :: is => windowFresh true is
  | _, .rot _ :: is => windowFresh false is
  | fresh, .sendd _ :: is => fresh && windowFresh fresh is
  | fresh, .dat _ :: is => fresh && windowFresh fresh is
  | fresh, .sendc _ :: is => windowFresh fresh is
  | fresh, .cmd _ :: is => windowFresh fresh is
  | fresh, .cvt _ _ _ _ :: is => windowFresh fresh is
  | fresh, .size :: is => windowFresh fresh is

end Sys2Proof.Safety
end

