-- ==== Sys2Proof/Certificates/Slice0/Obligations.lean ====
section
/-! DEFINITION. The statements for the provers, from the numbered rules of spec/.

`answerAt`, `skipAnswers` and `transportOk` speak of the transport's answers as the model holds them
(log 1), one answer per transaction (log 20). -/

open Sys2Proof Sys2Proof.Machine Sys2Proof.Safety

/-! ### Encoding -/

/-- Table words of every operation decode to it: a sanity check. The operation numbers and operands are
30_encoding.md R73 and R74; that a table word has `CW` in bits 31..0, `AW` in bits 63..32 and the payload
above, `P[0]` lowest, is the model's choice (log 10). -/
def Obligations.TableRowsDecode : Prop :=
  decodeTableWord 64 0xFF00000000000105 = none ∧
  decodeTableWord 72 0x290000000000010001 = some (.sendc [0x29]) ∧
  decodeTableWord 80 0x00F80000000000020002 = some (.sendd [0xF8, 0x00]) ∧
  decodeTableWord 64 0x0000001100000003 = some (.cmd 0x11) ∧
  decodeTableWord 64 0x0000005500000004 = some (.dat 0x55) ∧
  decodeTableWord 64 0x123456FF00000005 = some (.cvt 0x12 0x34 0x56 0xFF) ∧
  decodeTableWord 64 0x0000000500000006 = some (.rot 5) ∧
  decodeTableWord 64 0x0000000000000007 = some .size ∧
  decodeTableWord 64 0x0000000000000008 = some .win ∧
  decodeTableWord 64 0x0000000000000009 = none

/-- Decoding the descriptor of any request that fits one gives it back, every operand at every value
(30_encoding.md sections 2 and 3). -/
def Obligations.DecodeOfEncode : Prop :=
  ∀ i : Instr, i.wellFormed = true → decode (encode i) = .ok i

/-- Every legal descriptor is the descriptor of the request it decodes to, so no bit of a legal
descriptor is dropped (30_encoding.md sections 2 to 4). -/
def Obligations.EncodeOfDecode : Prop :=
  ∀ (d : Descriptor) (i : Instr), d.wellFormed = true → decode d = .ok i →
    i.wellFormed = true ∧ encode i = d

/-- Whether a descriptor is legal depends on its two words alone ("No check reads the payload bytes",
30_encoding.md R80). -/
def Obligations.DecodeVerdictIgnoresPayload : Prop :=
  ∀ (cw aw : Word) (p q : List Byte) (e : DecodeError),
    decode ⟨cw, aw, p⟩ = .error e ↔ decode ⟨cw, aw, q⟩ = .error e

/-- A descriptor's length is 4 + 4 + `LEN` bytes and is known from `CW[31:16]` alone (30_encoding.md
R77). -/
def Obligations.DescriptorLengthFromControlWord : Prop :=
  ∀ d e : Descriptor, d.wellFormed = true → e.wellFormed = true →
    d.byteLength = 4 + 4 + d.payload.length ∧
    (d.cw.extractLsb' 16 16 = e.cw.extractLsb' 16 16 → d.payload.length = e.payload.length)

/-! ### The request port -/

/-- The decode checks of 30_encoding.md R80 in their order, with the operand assembly of R74 and the
table of R73, for every well-formed descriptor taken by an idle port. -/
def Obligations.RequestRunsChecksInOrder : Prop :=
  ∀ (s : State) (d : Descriptor) (rest : List PortInput),
    s.port = .request d :: rest → s.phase = .idle →
    d.payload.length = (d.cw.extractLsb' 16 16).toNat →
    let t : State := { s with port := rest }
    let op : Nat := (d.cw.extractLsb' 0 8).toNat
    let illegal : Host.Outcome State Fault Refusal :=
      .next { t with rspStatus := some 3, rspResult := some 0 }
    step s =
      if s.live = false then .next { t with rspStatus := some 2, rspResult := some 0 }
      else if d.cw.extractLsb' 8 8 ≠ 0 then illegal
      else if op = 0 ∨ 8 < op then illegal
      else if 3 ≤ op ∧ d.cw.extractLsb' 16 16 ≠ 0 then illegal
      else if (op = 1 ∨ op = 2 ∨ op = 7 ∨ op = 8) ∧ d.aw ≠ 0 then illegal
      else if (op = 3 ∨ op = 4) ∧ d.aw.extractLsb' 8 24 ≠ 0 then illegal
      else if op = 1 then exec (.sendc d.payload) t
      else if op = 2 then exec (.sendd d.payload) t
      else if op = 3 then exec (.cmd (d.aw.extractLsb' 0 8)) t
      else if op = 4 then exec (.dat (d.aw.extractLsb' 0 8)) t
      else if op = 5 then
        exec (.cvt (d.aw.extractLsb' 24 8) (d.aw.extractLsb' 16 8) (d.aw.extractLsb' 8 8)
          (d.aw.extractLsb' 0 8)) t
      else if op = 6 then exec (.rot d.aw) t
      else if op = 7 then exec .size t
      else exec .win t

/-- A step runs the decoded request: what step adds around exec is that the request leaves the port. -/
def Obligations.StepRunsDecodedRequest : Prop :=
  ∀ (s : State) (d : Descriptor) (rest : List PortInput) (i : Instr),
    s.port = .request d :: rest → s.phase = .idle → d.wellFormed = true → decode d = .ok i →
    step s = exec i { s with port := rest }

/-- An illegal descriptor answers `ILLEGAL_REQUEST` with result 0, writes nothing but the response
registers and makes no event (60_exceptions.md R173; the request leaves the port). -/
def Obligations.IllegalDescriptorWritesResponseOnly : Prop :=
  ∀ (s : State) (d : Descriptor) (rest : List PortInput) (e : DecodeError),
    s.port = .request d :: rest → s.phase = .idle → s.live = true → d.wellFormed = true →
    decode d = .error e →
    step s = .next { s with port := rest, rspStatus := some 3, rspResult := some 0 }

/-- While `LIVE = 0` every request, legal or not, answers `CONFIGURATION_ERROR` with result 0 and has
no other effect (60_exceptions.md R172). -/
def Obligations.DeadBlockAnswersConfigurationError : Prop :=
  (∀ (s : State) (d : Descriptor) (rest : List PortInput),
    s.port = .request d :: rest → s.phase = .idle → s.live = false → d.wellFormed = true →
    step s = .next { s with port := rest, rspStatus := some 2, rspResult := some 0 }) ∧
  (∀ (i : Instr) (s : State), s.live = false →
    exec i s = .next { s with phase := .idle, rspStatus := some 2, rspResult := some 0 })

/-- A descriptor with `|P| ≠ CW[31:16]` is refused at the port (30_encoding.md R71), under a name of the
model's own (log 9). -/
def Obligations.IllFormedDescriptorRefused : Prop :=
  ∀ (s : State) (d : Descriptor) (rest : List PortInput),
    s.port = .request d :: rest → s.phase = .idle →
    d.payload.length ≠ (d.cw.extractLsb' 16 16).toNat →
    step s = .refused .illFormedDescriptor

/-- "The block accepts no request while BUSY" (10_state.md R30). That the refusal is `portBusy` also for
an ill-formed descriptor, the `BUSY` check coming first, is the model's choice (log 9); no step leads
from an idle port to a busy one (log 3). -/
def Obligations.BusyPortAcceptsNoRequest : Prop :=
  ∀ (s : State) (d : Descriptor) (rest : List PortInput),
    s.port = .request d :: rest → s.phase = .busy → step s = .refused .portBusy

/-- With no action of the host the block stays as it is. The model's choice (log 8). -/
def Obligations.IdlePortLeavesState : Prop :=
  ∀ s : State, s.port = [] → step s = .next s

/-! ### Every request -/

/-- Every request ends with a response, the port idle again (70_reset_and_hazards.md section 4,
10_state.md R30 and R31): no request faults or is refused by exec. It rests on the transport answering
in finite time (R202; log 13). -/
def Obligations.EveryRequestEndsWithResponse : Prop :=
  ∀ (i : Instr) (s : State), ∃ t st r,
    exec i s = .next t ∧ t.phase = .idle ∧ t.rspStatus = some st ∧ t.rspResult = some r

/-- No request writes a configuration register, `LIVE`, the color mode or a parameter, and none acts
for the host (10_state.md R24, R25, R29). -/
def Obligations.RequestKeepsConfiguration : Prop :=
  ∀ (i : Instr) (s t : State), exec i s = .next t →
    t.cfgW = s.cfgW ∧ t.cfgH = s.cfgH ∧ t.cfgBgr = s.cfgBgr ∧ t.cfgRowOff = s.cfgRowOff ∧
    t.cfgColOff = s.cfgColOff ∧ t.cfgDcPresent = s.cfgDcPresent ∧ t.colorMode = s.colorMode ∧
    t.live = s.live ∧ t.par = s.par ∧ t.port = s.port

/-- No request but ROT writes `ROT`, `ROW_OFF` or `COL_OFF` (10_state.md R26, R27). -/
def Obligations.OnlyRotWritesRotation : Prop :=
  ∀ (i : Instr) (s t : State), (∀ r, i ≠ .rot r) → exec i s = .next t →
    t.rot = s.rot ∧ t.rowOff = s.rowOff ∧ t.colOff = s.colOff

/-- A request only appends to the event trace (20_memory.md R59, R63), one event for each answer it takes
from the transport, the `k`-th recording the reply of the `k`-th answer, or `fail` for a write over
`MAX_XFER` (R55, R56, R57). That the listed answers come first and then free draws is the model's choice
(log 1), and so is that an over-long write uses an answer too (log 20). -/
def Obligations.OneEventPerTransportAnswer : Prop :=
  ∀ (i : Instr) (s t : State), exec i s = .next t →
    ∃ es, t.trace = s.trace ++ es ∧ t.answers = s.answers.drop es.length ∧
      t.draws = s.draws + (es.length - s.answers.length) ∧ es.length ≤ 10 ∧
      ∀ k e, es[k]? = some e → answeredBy s.par.maxXfer (answerAt s k) e = true

/-- An error is not sticky: what a request does does not depend on the response of the one before
(60_exceptions.md R178). -/
def Obligations.NoRequestReadsTheLastResponse : Prop :=
  ∀ (i : Instr) (s : State) (st : Option Byte) (r : Option Word),
    exec i { s with rspStatus := st, rspResult := r } = exec i s

/-! ### The transport -/

/-- The outcomes of a `BusWrite` (20_memory.md R55, R56): on `ok` within `MAX_XFER` all bytes; on `fail`,
and over `MAX_XFER` whatever the transport answers (R56), some prefix; and every prefix is admitted.
That an over-long write uses one answer too is the model's choice (log 20), and so is that an answer's
count `k` within the write's length is the length delivered (log 2). -/
def Obligations.BusWriteOutcomes : Prop :=
  ∀ (bs : List Byte) (s : State),
    ((answerAt s 0).reply = .ok → bs.length ≤ s.par.maxXfer →
      busWrite bs s =
        ({ skipAnswers 1 s with trace := s.trace ++ [.write bs bs.length .ok] }, .ok)) ∧
    ((answerAt s 0).reply = .fail ∨ s.par.maxXfer < bs.length →
      ∃ k, k ≤ bs.length ∧ busWrite bs s =
        ({ skipAnswers 1 s with trace := s.trace ++ [.write bs k .fail] }, .fail)) ∧
    (∀ k, k ≤ bs.length →
      busWrite bs { s with answers := ⟨.fail, k⟩ :: s.answers } =
        ({ s with trace := s.trace ++ [.write bs k .fail] }, .fail))

/-- A `BusWrite` longer than `MAX_XFER` always fails, whatever the transport would have answered, and a
shorter one may (20_memory.md R56). That the over-long write uses one answer too is the model's choice
(log 20). -/
def Obligations.OverlongWriteFails : Prop :=
  ∀ (bs : List Byte) (s : State),
    (s.par.maxXfer < bs.length → (busWrite bs s).2 = .fail ∧
      ∃ k, k ≤ bs.length ∧
        (busWrite bs s).1 = { skipAnswers 1 s with trace := s.trace ++ [.write bs k .fail] }) ∧
    (bs.length ≤ s.par.maxXfer → (busWrite bs s).2 = (answerAt s 0).reply)

/-- The outcomes of a `LineSet` (20_memory.md R57): `ok` leaves `DC` at the level, `fail` leaves it
`UNKNOWN`; either makes its event. -/
def Obligations.LineSetOutcomes : Prop :=
  ∀ (level : Level) (s : State),
    ((answerAt s 0).reply = .ok → lineSet level s =
      ({ skipAnswers 1 s with
          trace := s.trace ++ [.line level .ok], dc := .driven level }, .ok)) ∧
    ((answerAt s 0).reply = .fail → lineSet level s =
      ({ skipAnswers 1 s with
          trace := s.trace ++ [.line level .fail], dc := .unknown }, .fail))

/-! ### The framer -/

/-- SENDC and SENDD deliver a payload of 1 to `MAX_XFER` bytes as one transaction under their level and
answer `OK, 0` when the transport answers `ok` twice (40_framer.md section 1). -/
def Obligations.FramerPayloadDelivered : Prop :=
  ∀ (p : List Byte) (s : State), s.live = true → transportOk 2 s → p ≠ [] →
    p.length ≤ s.par.maxXfer →
    exec (.sendc p) s = .next
      { skipAnswers 2 s with
        trace := s.trace ++ [.line .low .ok, .write p p.length .ok]
        dc := .driven .low, phase := .idle, rspStatus := some 0, rspResult := some 0 } ∧
    exec (.sendd p) s = .next
      { skipAnswers 2 s with
        trace := s.trace ++ [.line .high .ok, .write p p.length .ok]
        dc := .driven .high, phase := .idle, rspStatus := some 0, rspResult := some 0 }

/-- An empty SENDC or SENDD sets the line and makes no write (40_framer.md section 1). -/
def Obligations.FramerEmptyPayloadSetsLineOnly : Prop :=
  ∀ s : State, s.live = true → (answerAt s 0).reply = .ok →
    exec (.sendc []) s = .next
      { skipAnswers 1 s with
        trace := s.trace ++ [.line .low .ok]
        dc := .driven .low, phase := .idle, rspStatus := some 0, rspResult := some 0 } ∧
    exec (.sendd []) s = .next
      { skipAnswers 1 s with
        trace := s.trace ++ [.line .high .ok]
        dc := .driven .high, phase := .idle, rspStatus := some 0, rspResult := some 0 }

/-- CMD and DAT deliver their byte under their level and answer `OK, 0` when the transport answers `ok`
twice (40_framer.md section 1). -/
def Obligations.FramerByteDelivered : Prop :=
  ∀ (b : Byte) (s : State), s.live = true → transportOk 2 s → 1 ≤ s.par.maxXfer →
    exec (.cmd b) s = .next
      { skipAnswers 2 s with
        trace := s.trace ++ [.line .low .ok, .write [b] 1 .ok]
        dc := .driven .low, phase := .idle, rspStatus := some 0, rspResult := some 0 } ∧
    exec (.dat b) s = .next
      { skipAnswers 2 s with
        trace := s.trace ++ [.line .high .ok, .write [b] 1 .ok]
        dc := .driven .high, phase := .idle, rspStatus := some 0, rspResult := some 0 }

/-- CMD and DAT are SENDC and SENDD of one byte ("conveniences", 40_framer.md R93 and R94). -/
def Obligations.ByteRequestsAreOneBytePayloads : Prop :=
  ∀ (b : Byte) (s : State),
    exec (.cmd b) s = exec (.sendc [b]) s ∧ exec (.dat b) s = exec (.sendd [b]) s

/-- The first frame step whose line-set fails ends its request: the steps before it stay on the bus, no
write follows, `DC` is unknown, and the record holds the step with stage 0 (40_framer.md R90,
60_exceptions.md R171, R176, R177). For every request of frame steps. -/
def Obligations.FailedLineSetEndsRequest : Prop :=
  ∀ (i : Instr) (s : State) (j : Nat) (level : Level) (bs : List Byte), s.live = true →
    (frameStepsOf s i)[j]? = some (level, bs) →
    (∀ f ∈ (frameStepsOf s i).take j, f.2 ≠ [] ∧ f.2.length ≤ s.par.maxXfer) →
    transportOk (2 * j) s → (answerAt s (2 * j)).reply = .fail →
    exec i s = .next
      { skipAnswers (2 * j + 1) (beforeFrames s i) with
        trace := s.trace ++ (((frameStepsOf s i).take j).flatMap okEvents ++ [.line level .fail])
        dc := .unknown, phase := .idle, rspStatus := some 1
        rspResult := some (BitVec.ofNat 32 j) }

/-- The first frame step whose write fails ends its request: the steps before it and the delivered
prefix stay on the bus, `DC` is at the step's level, and the record holds the step with stage 1
(40_framer.md R90, 60_exceptions.md R171, R176, R177). For every request of frame steps. R55 admits
every prefix; that its length is the smaller of the answer's count and the write's length is the model's
choice (log 2), for an over-long write too (log 20). -/
def Obligations.FailedWriteEndsRequest : Prop :=
  ∀ (i : Instr) (s : State) (j : Nat) (level : Level) (bs : List Byte), s.live = true →
    (frameStepsOf s i)[j]? = some (level, bs) → bs ≠ [] →
    (∀ f ∈ (frameStepsOf s i).take j, f.2 ≠ [] ∧ f.2.length ≤ s.par.maxXfer) →
    transportOk (2 * j + 1) s →
    ((answerAt s (2 * j + 1)).reply = .fail ∨ s.par.maxXfer < bs.length) →
    exec i s = .next
      { skipAnswers (2 * j + 2) (beforeFrames s i) with
        trace := s.trace ++ (((frameStepsOf s i).take j).flatMap okEvents ++
          [.line level .ok,
           .write bs (min (answerAt s (2 * j + 1)).delivered bs.length) .fail])
        dc := .driven level, phase := .idle, rspStatus := some 1
        rspResult := some (BitVec.ofNat 32 (j + 256)) }

/-- A payload over `MAX_XFER` never succeeds, whatever the transport answers (40_framer.md R96,
20_memory.md R56). -/
def Obligations.OverlongPayloadNeverSucceeds : Prop :=
  ∀ (p : List Byte) (s : State), s.live = true → s.par.maxXfer < p.length →
    (∃ t, exec (.sendc p) s = .next t ∧ t.rspStatus = some 1) ∧
    (∃ t, exec (.sendd p) s = .next t ∧ t.rspStatus = some 1)

/-- The bytes of a SENDC reach the panel as command bytes and those of a SENDD as data bytes, in list
order, when the request answers `OK` (20_memory.md R52, R53). -/
def Obligations.PayloadReachesPanelUnderItsLevel : Prop :=
  ∀ (p : List Byte) (s t : State), s.live = true → t.rspStatus = some 0 →
    (exec (.sendc p) s = .next t →
      delivered t.trace = delivered s.trace ++ p.map (fun b => (.driven .low, b))) ∧
    (exec (.sendd p) s = .next t →
      delivered t.trace = delivered s.trace ++ p.map (fun b => (.driven .high, b)))

/-! ### The color converter -/

/-- CVT answers `OK` with the packing of the expanded channels and changes nothing else (42_color.md
R131, R132). -/
def Obligations.CvtPacksExpandedChannels : Prop :=
  ∀ (r8 g8 b8 a8 : Byte) (s : State), s.live = true →
    let r16 : Half := (r8.setWidth 16 <<< 8) ||| r8.setWidth 16
    let g16 : Half := (g8.setWidth 16 <<< 8) ||| g8.setWidth 16
    let b16 : Half := (b8.setWidth 16 <<< 8) ||| b8.setWidth 16
    let c : Half := (r16 &&& 0xF800) ||| ((g16 &&& 0xFC00) >>> 5) ||| ((b16 &&& 0xF800) >>> 11)
    exec (.cvt r8 g8 b8 a8) s = .next
      { s with phase := .idle, rspStatus := some 0, rspResult := some (c.setWidth 32) }

/-- The packing takes the top bits of each channel, each in its own field (42_color.md R133). -/
def Obligations.CvtTakesTopBits : Prop :=
  ∀ r8 g8 b8 : Byte,
    rgb565 r8 g8 b8 = ((r8.setWidth 16 >>> 3) <<< 11) ||| ((g8.setWidth 16 >>> 2) <<< 5)
      ||| (b8.setWidth 16 >>> 3) ∧
    (rgb565 r8 g8 b8).extractLsb' 11 5 = r8.extractLsb' 3 5 ∧
    (rgb565 r8 g8 b8).extractLsb' 5 6 = g8.extractLsb' 2 6 ∧
    (rgb565 r8 g8 b8).extractLsb' 0 5 = b8.extractLsb' 3 5

/-- Alpha does not affect CVT (42_color.md R134). -/
def Obligations.CvtIgnoresAlpha : Prop :=
  ∀ (r8 g8 b8 a8 a8' : Byte) (s : State),
    exec (.cvt r8 g8 b8 a8) s = exec (.cvt r8 g8 b8 a8') s

/-- The pixel pseudo-instruction sends the converted pixel high byte first, and the panel reads the
same pixel back from its two bytes (42_color.md R135, 30_encoding.md R82). -/
def Obligations.PixelBytesHighFirst : Prop :=
  ∀ c : Half, pseudoPx c = [.sendd [c.extractLsb' 8 8, c.extractLsb' 0 8]] ∧
    pixelsOf (be16 c) = [c]

/-! ### Rotation and size -/

/-- ROT writes the rotation and its offsets and emits the addressing-mode register, then the
scroll-offset register, when the transport answers `ok` eight times (43_rotation.md section 3). -/
def Obligations.RotEmitsAddressingModeThenScroll : Prop :=
  ∀ (r : Word) (s : State), s.live = true → 2 ≤ s.par.maxXfer → transportOk 8 s →
    let q : Rotation := r.extractLsb' 0 2
    let m : Byte :=
      (if q = 0 then s.par.madctl.rot0 else if q = 1 then s.par.madctl.rot1
        else if q = 2 then s.par.madctl.rot2 else s.par.madctl.rot3)
        ||| (if s.cfgBgr = true then s.par.madctl.bgr else 0)
    let sc : Half :=
      if q = 1 ∨ q = scrollPartnerRotation s.par.scrollPartner then 320 - s.cfgW else 0
    exec (.rot r) s = .next
      { skipAnswers 8 s with
        rot := q
        rowOff := if q = 0 then s.cfgRowOff else if q = 1 then s.cfgColOff else 0
        colOff := if q = 0 then s.cfgColOff else if q = 1 then s.cfgRowOff else 0
        trace := s.trace ++
          [.line .low .ok, .write [s.par.cmdMadctl] 1 .ok, .line .high .ok, .write [m] 1 .ok,
           .line .low .ok, .write [s.par.cmdVscsad] 1 .ok, .line .high .ok,
           .write [sc.extractLsb' 8 8, sc.extractLsb' 0 8] 2 .ok]
        dc := .driven .high, phase := .idle, rspStatus := some 0, rspResult := some 0 }

/-- Whatever the transport answers, ROT leaves `ROT`, `ROW_OFF` and `COL_OFF` at the new rotation's
values, and the size is the new rotation's (43_rotation.md R154, R158). -/
def Obligations.RotWritesRotationEvenOnFailure : Prop :=
  ∀ (r : Word) (s : State), s.live = true → ∃ t, exec (.rot r) s = .next t ∧
    t.rot = r.extractLsb' 0 2 ∧
    (t.rot = 0 → t.rowOff = s.cfgRowOff ∧ t.colOff = s.cfgColOff) ∧
    (t.rot = 1 → t.rowOff = s.cfgColOff ∧ t.colOff = s.cfgRowOff) ∧
    (t.rot = 2 ∨ t.rot = 3 → t.rowOff = 0 ∧ t.colOff = 0) ∧
    currentSize t = rotatedSize s.cfgW s.cfgH (r.extractLsb' 0 2)

/-- ROT of `a` and of `a + 4` make the same events and leave the same state (43_rotation.md R157). -/
def Obligations.RotIsModuloFour : Prop :=
  ∀ (a : Word) (s : State), a.toNat + 4 < 2 ^ 32 → exec (.rot (a + 4)) s = exec (.rot a) s

/-- The scroll offset (43_rotation.md R153): `320 - CFG_W` for the two rotations of `SCROLL_NZ`, which
holds 1 and one other, and 0 for the rest; never an underflow on a checked width. -/
def Obligations.ScrollOffsetOfRotation : Prop :=
  ∀ (p : ScrollPartner) (w : Half) (r : Rotation),
    scrollPartnerRotation p ≠ 1 ∧
    (r = 1 ∨ r = scrollPartnerRotation p → scroll p w r = 320 - w) ∧
    (¬ (r = 1 ∨ r = scrollPartnerRotation p) → scroll p w r = 0) ∧
    (1 ≤ w.toNat → w.toNat ≤ 320 → (scroll p w r).toNat ≤ 319 ∧
      (r = 1 → (scroll p w r).toNat = 320 - w.toNat))

/-- The addressing-mode bytes of rotations 1 and 0 differ for each `CFG_BGR` exactly when their
parameters differ in a bit outside `MADCTL_BGR` (43_rotation.md R152). -/
def Obligations.MadctlBytesDifferOutsideBgr : Prop :=
  ∀ m : MadctlBytes,
    ((∀ bgr, madctl m bgr 1 ≠ madctl m bgr 0) ↔
      ∃ k, k < 8 ∧ m.rot0.getLsbD k ≠ m.rot1.getLsbD k ∧ m.bgr.getLsbD k = false) ∧
    (m.distinct = true ↔
      ∃ k, k < 8 ∧ m.rot0.getLsbD k ≠ m.rot1.getLsbD k ∧ m.bgr.getLsbD k = false)

/-- SIZE answers the rotation-aware size, `W'` in the high half and `H'` in the low half, and changes
nothing else (43_rotation.md R160, R161). -/
def Obligations.SizeReportsRotationAwareSize : Prop :=
  ∀ s : State, s.live = true → ∃ res : Word,
    exec .size s = .next { s with phase := .idle, rspStatus := some 0, rspResult := some res } ∧
    res.extractLsb' 16 16 = (if s.rot = 0 ∨ s.rot = 2 then s.cfgW else s.cfgH) ∧
    res.extractLsb' 0 16 = (if s.rot = 0 ∨ s.rot = 2 then s.cfgH else s.cfgW)

/-! ### The window -/

/-- WIN emits the column range, the row range and the memory-write command over the rotation-aware
size when the transport answers `ok` ten times (41_window.md section headed R110, R111). -/
def Obligations.WinEmitsFullWindow : Prop :=
  ∀ s : State, s.live = true → 4 ≤ s.par.maxXfer → transportOk 10 s →
    let w : Half := (if s.rot = 0 ∨ s.rot = 2 then s.cfgW else s.cfgH) - 1
    let h : Half := (if s.rot = 0 ∨ s.rot = 2 then s.cfgH else s.cfgW) - 1
    exec .win s = .next
      { skipAnswers 10 s with
        trace := s.trace ++
          [.line .low .ok, .write [s.par.cmdCaset] 1 .ok, .line .high .ok,
           .write [0, 0, w.extractLsb' 8 8, w.extractLsb' 0 8] 4 .ok,
           .line .low .ok, .write [s.par.cmdRaset] 1 .ok, .line .high .ok,
           .write [0, 0, h.extractLsb' 8 8, h.extractLsb' 0 8] 4 .ok,
           .line .low .ok, .write [s.par.cmdRamwr] 1 .ok]
        dc := .driven .low, phase := .idle, rspStatus := some 0, rspResult := some 0 }

/-- WIN does not add the offsets to the window: its events do not depend on them (41_window.md R112). -/
def Obligations.WinIgnoresOffsets : Prop :=
  ∀ (s t : State) (ro co : Half), exec .win s = .next t →
    exec .win { s with rowOff := ro, colOff := co } = .next { t with rowOff := ro, colOff := co }

/-- In a live state that meets R35 the window's ends are in 0 to 319 (41_window.md R113). -/
def Obligations.WinEndsFitPanel : Prop :=
  ∀ s : State, configOk s → s.live = true →
    ((currentSize s).1 - 1).toNat = (currentSize s).1.toNat - 1 ∧
    ((currentSize s).1 - 1).toNat ≤ 319 ∧
    ((currentSize s).2 - 1).toNat = (currentSize s).2.toNat - 1 ∧
    ((currentSize s).2 - 1).toNat ≤ 319

/-- WIN does what `caset 0, W'-1`, `raset 0, H'-1` and `ramwr` do one after another when every
transaction succeeds (30_encoding.md R82). -/
def Obligations.WinEqualsItsPseudoInstructions : Prop :=
  ∀ s : State, s.live = true → 4 ≤ s.par.maxXfer → transportOk 10 s →
    execAll (pseudoCaset s.par 0 ((currentSize s).1 - 1) ++
      pseudoRaset s.par 0 ((currentSize s).2 - 1) ++ pseudoRamwr s.par) s = exec .win s

/-- Pixel `j * W' + i` of the data after a WIN lands at column `i`, row `j`, for every pixel of the
window (41_window.md R114). -/
def Obligations.PixelsFillWindowRowMajor : Prop :=
  ∀ (w h : Half) (i j : Nat), i < w.toNat → j < h.toNat →
    pixelPosition (w, h) (j * w.toNat + i) = (i, j)

/-- A request whose payload the host keeps within `MAX_XFER` answers `OK` when the transport answers
`ok` throughout: nothing but the transport or an over-long payload fails it (70_reset_and_hazards.md
R197, 20_memory.md R56). -/
def Obligations.BoundedRequestSucceedsOnOkTransport : Prop :=
  ∀ (i : Instr) (s : State), s.live = true → 4 ≤ s.par.maxXfer →
    chunkBounded s.par.maxXfer i = true → transportOk 10 s →
    ∃ t, exec i s = .next t ∧ t.rspStatus = some 0

/-- Streaming data keeps the rotation and the size the window was emitted for (70_reset_and_hazards.md
R198, R199). -/
def Obligations.DataStreamKeepsWindowExtent : Prop :=
  ∀ (is : List Instr) (s t : State), (∀ i ∈ is, extendsMemoryWrite i = true) →
    execAll is s = .next t → t.rot = s.rot ∧ currentSize t = currentSize s

/-- When the host emits WIN again after each ROT before it streams data, the block's rotation and size at
every data request are still those at which the last WIN before it was executed, so the extent that the
data is laid out by is the current one (70_reset_and_hazards.md R198, 41_window.md R111). -/
def Obligations.FreshDataUsesLastWindowExtent : Prop :=
  ∀ (is : List Instr) (i : Instr) (s t : State), extendsMemoryWrite i = true →
    windowFresh false (is ++ [i]) = true → execAll is s = .next t →
    ∃ before after u, is = before ++ .win :: after ∧ (∀ j ∈ after, j ≠ .win) ∧
      execAll before s = .next u ∧ t.rot = u.rot ∧ currentSize t = currentSize u

/-- A pixel stream cut into SENDD requests of at most `MAX_XFER` bytes reaches the panel as data bytes,
whole and in order, when the transport answers `ok`: "chunked but never truncated or padded"
(70_reset_and_hazards.md R197, 42_color.md R135, 20_memory.md R58). -/
def Obligations.PixelStreamReachesPanelWhole : Prop :=
  ∀ (pixels : List Half) (is : List Instr) (s : State), s.live = true →
    pixelStream s.par.maxXfer pixels is → transportOk (2 * is.length) s →
    ∃ t, execAll is s = .next t ∧
      delivered t.trace =
        delivered s.trace ++ (pixels.flatMap be16).map (fun b => (.driven .high, b)) ∧
      pixelsOf (pixels.flatMap be16) = pixels

/-! ### Reset -/

/-- Reset gives every element of the state the value of 10_state.md R36, with the checks of
70_reset_and_hazards.md R191, and makes no bus event (R192); the trace stays (R190). -/
def Obligations.ResetTakesSpecValues : Prop :=
  ∀ (s : State) (c : CfgInputs) (rest : List PortInput), s.port = .reset c :: rest →
    let q : Rotation := c.rotInit.extractLsb' 0 2
    step s = .next
      { s with
        port := rest
        cfgW := c.w, cfgH := c.h, cfgBgr := c.bgr, cfgRowOff := c.rowOff, cfgColOff := c.colOff
        cfgDcPresent := c.dcPresent
        live := decide (c.dcPresent = true ∧ 1 ≤ c.w.toNat ∧ c.w.toNat ≤ 320 ∧
          1 ≤ c.h.toNat ∧ c.h.toNat ≤ 320)
        rot := q
        rowOff := if q = 0 then c.rowOff else if q = 1 then c.colOff else 0
        colOff := if q = 0 then c.colOff else if q = 1 then c.rowOff else 0
        dc := .unknown, phase := .idle, rspStatus := none, rspResult := none }

/-- A reset that interrupts a request after its first `n` transactions keeps their events, writes no
response and leaves the reset state (70_reset_and_hazards.md R190). That it lands between two
transactions is the model's choice (log 4). -/
def Obligations.ResetAbandonsRequest : Prop :=
  ∀ (s t : State) (d : Descriptor) (n : Nat) (c : CfgInputs) (rest : List PortInput) (i : Instr)
    (es : List Event),
    s.port = .interrupted d n c :: rest → s.phase = .idle → d.wellFormed = true →
    decode d = .ok i → exec i { s with port := rest } = .next t → t.trace = s.trace ++ es →
    step s = .next (applyReset c
      { skipAnswers (min n es.length) { s with port := rest } with
        trace := s.trace ++ es.take n })

/-- The state after reset is what a reset with its own configuration inputs gives, its parameters meet
43_rotation.md R152, and `MAX_XFER` and `SCROLL_NZ` are at their defaults. The configuration inputs
are the model's choice (log 5); that the OPEN parameters are free is log 6 and log 7. -/
def Obligations.StateResetIsAReset : Prop :=
  applyReset Config.resetInputs State.reset = State.reset ∧
  State.reset.par.madctl.distinct = true ∧ State.reset.par.maxXfer = 4096 ∧
  State.reset.par.scrollPartner = .rot0 ∧ State.reset.live = true

/-- The state after reset meets every invariant below. Its configuration inputs are the model's choice
(log 5), and that its trace is empty is inferred (log 14, DEDUCED: R192 makes no event). -/
def Obligations.StateResetMeetsInvariants : Prop :=
  configOk State.reset ∧ responseOk State.reset ∧ traceOk State.reset ∧ dcOk State.reset ∧
  State.reset.phase = .idle ∧ State.reset.trace = []

/-! ### Invariants that every step keeps -/

/-- Every step keeps the invariants of 10_state.md R35. -/
def Obligations.StepKeepsConfigurationInvariant : Prop :=
  ∀ s t : State, configOk s → step s = .next t → configOk t

/-- Every step keeps the response registers at `NONE` together or at a response the block can give
(10_state.md R31, 60_exceptions.md R170, R171, R174). -/
def Obligations.StepKeepsResponseForm : Prop :=
  ∀ s t : State, responseOk s → step s = .next t → responseOk t

/-- Every step keeps the trace one of the framer's: each write right after a successful line-set, never
empty, a prefix delivered, and successful only within `MAX_XFER` (20_memory.md R55, R56, R64;
70_reset_and_hazards.md R200). -/
def Obligations.StepKeepsLineBeforeWrite : Prop :=
  ∀ s t : State, traceOk s → step s = .next t → traceOk t

/-- Every step keeps the `DC` latch unknown or at the level of the last line-set of the trace
(10_state.md R28, 60_exceptions.md R177). -/
def Obligations.StepKeepsDcAtLastLineSet : Prop :=
  ∀ s t : State, dcOk s → step s = .next t → dcOk t

/-- Every step leaves the port idle, if it was, and the parameters as they are (00_scope.md R8). That no
step ends while a request is in progress is the model's choice: a request is one step, from acceptance to
response (log 3). By 10_state.md R30 the port is idle again when the response is written. -/
def Obligations.StepKeepsPortIdleAndParameters : Prop :=
  ∀ s t : State, s.phase = .idle → step s = .next t → t.phase = .idle ∧ t.par = s.par

/-- No step takes an event from the trace, a reset no more than a request (20_memory.md R59, R63;
70_reset_and_hazards.md R190). -/
def Obligations.StepOnlyAppendsToTrace : Prop :=
  ∀ s t : State, step s = .next t → s.trace <+: t.trace

/-- `LIVE` and the configuration registers change at reset only (10_state.md R24, R29). -/
def Obligations.ConfigurationChangesOnlyAtReset : Prop :=
  ∀ s t : State, step s = .next t →
    (∀ c rest, s.port ≠ .reset c :: rest) → (∀ d n c rest, s.port ≠ .interrupted d n c :: rest) →
    t.live = s.live ∧ t.cfgW = s.cfgW ∧ t.cfgH = s.cfgH ∧ t.cfgBgr = s.cfgBgr ∧
    t.cfgRowOff = s.cfgRowOff ∧ t.cfgColOff = s.cfgColOff ∧ t.cfgDcPresent = s.cfgDcPresent

/-! ### Assembly -/

/-- Each line of R81's table assembles to its descriptor, and cmd, dat, cvt and rot with a number out of
range do not assemble (30_encoding.md R81). -/
def Obligations.AssemblyGivesTheDescriptors : Prop :=
  ∀ p : Params,
    (∀ bs : List Byte, bs.length ≤ 65535 →
      (assemble p ⟨.sendc, bs.map fun b => .num b.toNat⟩).map (·.map encode) =
        some [⟨BitVec.ofNat 32 (bs.length * 65536 + 1), 0, bs⟩] ∧
      (assemble p ⟨.sendd, bs.map fun b => .num b.toNat⟩).map (·.map encode) =
        some [⟨BitVec.ofNat 32 (bs.length * 65536 + 2), 0, bs⟩]) ∧
    (∀ n : Nat, (assemble p ⟨.cmd, [.num n]⟩).map (·.map encode) =
      if n ≤ 255 then some [⟨3, BitVec.ofNat 32 n, []⟩] else none) ∧
    (∀ n : Nat, (assemble p ⟨.dat, [.num n]⟩).map (·.map encode) =
      if n ≤ 255 then some [⟨4, BitVec.ofNat 32 n, []⟩] else none) ∧
    (∀ r g b a : Nat, (assemble p ⟨.cvt, [.num r, .num g, .num b, .num a]⟩).map (·.map encode) =
      if r ≤ 255 ∧ g ≤ 255 ∧ b ≤ 255 ∧ a ≤ 255 then
        some [⟨5, BitVec.ofNat 32 (r * 2 ^ 24 + g * 2 ^ 16 + b * 2 ^ 8 + a), []⟩]
      else none) ∧
    (∀ n : Nat, (assemble p ⟨.rot, [.num n]⟩).map (·.map encode) =
      if n ≤ 2 ^ 32 - 1 then some [⟨6, BitVec.ofNat 32 n, []⟩] else none) ∧
    (assemble p ⟨.size, []⟩).map (·.map encode) = some [⟨7, 0, []⟩] ∧
    (assemble p ⟨.win, []⟩).map (·.map encode) = some [⟨8, 0, []⟩]
end

