-- ==== Sys2Proof/Laws/State.lean ====
section
/-! SUPPORT. One lemma per field per update of the state, each true by unfolding, so that no proof
unfolds a record update. -/

namespace Sys2Proof.Laws

open Sys2Proof.Machine

/-! `skipAnswers`: the transport's answers alone move on. -/

@[simp] theorem skipAnswers_par (n : Nat) (s : State) : (skipAnswers n s).par = s.par := rfl
@[simp] theorem skipAnswers_cfgW (n : Nat) (s : State) : (skipAnswers n s).cfgW = s.cfgW := rfl
@[simp] theorem skipAnswers_cfgH (n : Nat) (s : State) : (skipAnswers n s).cfgH = s.cfgH := rfl
@[simp] theorem skipAnswers_cfgBgr (n : Nat) (s : State) :
    (skipAnswers n s).cfgBgr = s.cfgBgr :=
  rfl
@[simp] theorem skipAnswers_cfgRowOff (n : Nat) (s : State) :
    (skipAnswers n s).cfgRowOff = s.cfgRowOff :=
  rfl
@[simp] theorem skipAnswers_cfgColOff (n : Nat) (s : State) :
    (skipAnswers n s).cfgColOff = s.cfgColOff :=
  rfl
@[simp] theorem skipAnswers_cfgDcPresent (n : Nat) (s : State) :
    (skipAnswers n s).cfgDcPresent = s.cfgDcPresent :=
  rfl
@[simp] theorem skipAnswers_colorMode (n : Nat) (s : State) :
    (skipAnswers n s).colorMode = s.colorMode :=
  rfl
@[simp] theorem skipAnswers_rot (n : Nat) (s : State) : (skipAnswers n s).rot = s.rot := rfl
@[simp] theorem skipAnswers_rowOff (n : Nat) (s : State) :
    (skipAnswers n s).rowOff = s.rowOff :=
  rfl
@[simp] theorem skipAnswers_colOff (n : Nat) (s : State) :
    (skipAnswers n s).colOff = s.colOff :=
  rfl
@[simp] theorem skipAnswers_dc (n : Nat) (s : State) : (skipAnswers n s).dc = s.dc := rfl
@[simp] theorem skipAnswers_live (n : Nat) (s : State) : (skipAnswers n s).live = s.live := rfl
@[simp] theorem skipAnswers_phase (n : Nat) (s : State) : (skipAnswers n s).phase = s.phase := rfl
@[simp] theorem skipAnswers_rspStatus (n : Nat) (s : State) :
    (skipAnswers n s).rspStatus = s.rspStatus :=
  rfl
@[simp] theorem skipAnswers_rspResult (n : Nat) (s : State) :
    (skipAnswers n s).rspResult = s.rspResult :=
  rfl
@[simp] theorem skipAnswers_trace (n : Nat) (s : State) : (skipAnswers n s).trace = s.trace := rfl
@[simp] theorem skipAnswers_port (n : Nat) (s : State) : (skipAnswers n s).port = s.port := rfl
@[simp] theorem skipAnswers_answers (n : Nat) (s : State) :
    (skipAnswers n s).answers = s.answers.drop n :=
  rfl
@[simp] theorem skipAnswers_draws (n : Nat) (s : State) :
    (skipAnswers n s).draws = s.draws + (n - s.answers.length) :=
  rfl

/-! `accept`: `PHASE` alone changes. -/

@[simp] theorem accept_par (s : State) : (accept s).par = s.par := rfl
@[simp] theorem accept_cfgW (s : State) : (accept s).cfgW = s.cfgW := rfl
@[simp] theorem accept_cfgH (s : State) : (accept s).cfgH = s.cfgH := rfl
@[simp] theorem accept_cfgBgr (s : State) : (accept s).cfgBgr = s.cfgBgr := rfl
@[simp] theorem accept_cfgRowOff (s : State) : (accept s).cfgRowOff = s.cfgRowOff := rfl
@[simp] theorem accept_cfgColOff (s : State) : (accept s).cfgColOff = s.cfgColOff := rfl
@[simp] theorem accept_cfgDcPresent (s : State) : (accept s).cfgDcPresent = s.cfgDcPresent := rfl
@[simp] theorem accept_colorMode (s : State) : (accept s).colorMode = s.colorMode := rfl
@[simp] theorem accept_rot (s : State) : (accept s).rot = s.rot := rfl
@[simp] theorem accept_rowOff (s : State) : (accept s).rowOff = s.rowOff := rfl
@[simp] theorem accept_colOff (s : State) : (accept s).colOff = s.colOff := rfl
@[simp] theorem accept_dc (s : State) : (accept s).dc = s.dc := rfl
@[simp] theorem accept_live (s : State) : (accept s).live = s.live := rfl
@[simp] theorem accept_phase (s : State) : (accept s).phase = .busy := rfl
@[simp] theorem accept_rspStatus (s : State) : (accept s).rspStatus = s.rspStatus := rfl
@[simp] theorem accept_rspResult (s : State) : (accept s).rspResult = s.rspResult := rfl
@[simp] theorem accept_trace (s : State) : (accept s).trace = s.trace := rfl
@[simp] theorem accept_port (s : State) : (accept s).port = s.port := rfl
@[simp] theorem accept_answers (s : State) : (accept s).answers = s.answers := rfl
@[simp] theorem accept_draws (s : State) : (accept s).draws = s.draws := rfl

/-! `respond`: the response and `PHASE` alone change. -/

@[simp] theorem respond_par (st : Status) (r : Word) (s : State) :
    (respond st r s).par = s.par :=
  rfl
@[simp] theorem respond_cfgW (st : Status) (r : Word) (s : State) :
    (respond st r s).cfgW = s.cfgW :=
  rfl
@[simp] theorem respond_cfgH (st : Status) (r : Word) (s : State) :
    (respond st r s).cfgH = s.cfgH :=
  rfl
@[simp] theorem respond_cfgBgr (st : Status) (r : Word) (s : State) :
    (respond st r s).cfgBgr = s.cfgBgr :=
  rfl
@[simp] theorem respond_cfgRowOff (st : Status) (r : Word) (s : State) :
    (respond st r s).cfgRowOff = s.cfgRowOff :=
  rfl
@[simp] theorem respond_cfgColOff (st : Status) (r : Word) (s : State) :
    (respond st r s).cfgColOff = s.cfgColOff :=
  rfl
@[simp] theorem respond_cfgDcPresent (st : Status) (r : Word) (s : State) :
    (respond st r s).cfgDcPresent = s.cfgDcPresent :=
  rfl
@[simp] theorem respond_colorMode (st : Status) (r : Word) (s : State) :
    (respond st r s).colorMode = s.colorMode :=
  rfl
@[simp] theorem respond_rot (st : Status) (r : Word) (s : State) :
    (respond st r s).rot = s.rot :=
  rfl
@[simp] theorem respond_rowOff (st : Status) (r : Word) (s : State) :
    (respond st r s).rowOff = s.rowOff :=
  rfl
@[simp] theorem respond_colOff (st : Status) (r : Word) (s : State) :
    (respond st r s).colOff = s.colOff :=
  rfl
@[simp] theorem respond_dc (st : Status) (r : Word) (s : State) : (respond st r s).dc = s.dc := rfl
@[simp] theorem respond_live (st : Status) (r : Word) (s : State) :
    (respond st r s).live = s.live :=
  rfl
@[simp] theorem respond_phase (st : Status) (r : Word) (s : State) :
    (respond st r s).phase = .idle :=
  rfl
@[simp] theorem respond_rspStatus (st : Status) (r : Word) (s : State) :
    (respond st r s).rspStatus = some (statusCode st) :=
  rfl
@[simp] theorem respond_rspResult (st : Status) (r : Word) (s : State) :
    (respond st r s).rspResult = some r :=
  rfl
@[simp] theorem respond_trace (st : Status) (r : Word) (s : State) :
    (respond st r s).trace = s.trace :=
  rfl
@[simp] theorem respond_port (st : Status) (r : Word) (s : State) :
    (respond st r s).port = s.port :=
  rfl
@[simp] theorem respond_answers (st : Status) (r : Word) (s : State) :
    (respond st r s).answers = s.answers :=
  rfl
@[simp] theorem respond_draws (st : Status) (r : Word) (s : State) :
    (respond st r s).draws = s.draws :=
  rfl

/-! `raiseError`: the response and `PHASE` alone change. -/

@[simp] theorem raiseError_par (st : Status) (r : Word) (s : State) :
    (raiseError st r s).par = s.par :=
  rfl
@[simp] theorem raiseError_cfgW (st : Status) (r : Word) (s : State) :
    (raiseError st r s).cfgW = s.cfgW :=
  rfl
@[simp] theorem raiseError_cfgH (st : Status) (r : Word) (s : State) :
    (raiseError st r s).cfgH = s.cfgH :=
  rfl
@[simp] theorem raiseError_cfgBgr (st : Status) (r : Word) (s : State) :
    (raiseError st r s).cfgBgr = s.cfgBgr :=
  rfl
@[simp] theorem raiseError_cfgRowOff (st : Status) (r : Word) (s : State) :
    (raiseError st r s).cfgRowOff = s.cfgRowOff :=
  rfl
@[simp] theorem raiseError_cfgColOff (st : Status) (r : Word) (s : State) :
    (raiseError st r s).cfgColOff = s.cfgColOff :=
  rfl
@[simp] theorem raiseError_cfgDcPresent (st : Status) (r : Word) (s : State) :
    (raiseError st r s).cfgDcPresent = s.cfgDcPresent :=
  rfl
@[simp] theorem raiseError_colorMode (st : Status) (r : Word) (s : State) :
    (raiseError st r s).colorMode = s.colorMode :=
  rfl
@[simp] theorem raiseError_rot (st : Status) (r : Word) (s : State) :
    (raiseError st r s).rot = s.rot :=
  rfl
@[simp] theorem raiseError_rowOff (st : Status) (r : Word) (s : State) :
    (raiseError st r s).rowOff = s.rowOff :=
  rfl
@[simp] theorem raiseError_colOff (st : Status) (r : Word) (s : State) :
    (raiseError st r s).colOff = s.colOff :=
  rfl
@[simp] theorem raiseError_dc (st : Status) (r : Word) (s : State) :
    (raiseError st r s).dc = s.dc :=
  rfl
@[simp] theorem raiseError_live (st : Status) (r : Word) (s : State) :
    (raiseError st r s).live = s.live :=
  rfl
@[simp] theorem raiseError_phase (st : Status) (r : Word) (s : State) :
    (raiseError st r s).phase = .idle :=
  rfl
@[simp] theorem raiseError_rspStatus (st : Status) (r : Word) (s : State) :
    (raiseError st r s).rspStatus = some (statusCode st) :=
  rfl
@[simp] theorem raiseError_rspResult (st : Status) (r : Word) (s : State) :
    (raiseError st r s).rspResult = some r :=
  rfl
@[simp] theorem raiseError_trace (st : Status) (r : Word) (s : State) :
    (raiseError st r s).trace = s.trace :=
  rfl
@[simp] theorem raiseError_port (st : Status) (r : Word) (s : State) :
    (raiseError st r s).port = s.port :=
  rfl
@[simp] theorem raiseError_answers (st : Status) (r : Word) (s : State) :
    (raiseError st r s).answers = s.answers :=
  rfl
@[simp] theorem raiseError_draws (st : Status) (r : Word) (s : State) :
    (raiseError st r s).draws = s.draws :=
  rfl

/-! `setRotation`: the rotation and the offsets alone change. -/

@[simp] theorem setRotation_par (q : Rotation) (s : State) : (setRotation q s).par = s.par := rfl
@[simp] theorem setRotation_cfgW (q : Rotation) (s : State) : (setRotation q s).cfgW = s.cfgW := rfl
@[simp] theorem setRotation_cfgH (q : Rotation) (s : State) : (setRotation q s).cfgH = s.cfgH := rfl
@[simp] theorem setRotation_cfgBgr (q : Rotation) (s : State) :
    (setRotation q s).cfgBgr = s.cfgBgr :=
  rfl
@[simp] theorem setRotation_cfgRowOff (q : Rotation) (s : State) :
    (setRotation q s).cfgRowOff = s.cfgRowOff :=
  rfl
@[simp] theorem setRotation_cfgColOff (q : Rotation) (s : State) :
    (setRotation q s).cfgColOff = s.cfgColOff :=
  rfl
@[simp] theorem setRotation_cfgDcPresent (q : Rotation) (s : State) :
    (setRotation q s).cfgDcPresent = s.cfgDcPresent :=
  rfl
@[simp] theorem setRotation_colorMode (q : Rotation) (s : State) :
    (setRotation q s).colorMode = s.colorMode :=
  rfl
@[simp] theorem setRotation_rot (q : Rotation) (s : State) : (setRotation q s).rot = q := rfl
@[simp] theorem setRotation_rowOff (q : Rotation) (s : State) :
    (setRotation q s).rowOff = (offsets s.cfgRowOff s.cfgColOff q).1 :=
  rfl
@[simp] theorem setRotation_colOff (q : Rotation) (s : State) :
    (setRotation q s).colOff = (offsets s.cfgRowOff s.cfgColOff q).2 :=
  rfl
@[simp] theorem setRotation_dc (q : Rotation) (s : State) : (setRotation q s).dc = s.dc := rfl
@[simp] theorem setRotation_live (q : Rotation) (s : State) : (setRotation q s).live = s.live := rfl
@[simp] theorem setRotation_phase (q : Rotation) (s : State) :
    (setRotation q s).phase = s.phase :=
  rfl
@[simp] theorem setRotation_rspStatus (q : Rotation) (s : State) :
    (setRotation q s).rspStatus = s.rspStatus :=
  rfl
@[simp] theorem setRotation_rspResult (q : Rotation) (s : State) :
    (setRotation q s).rspResult = s.rspResult :=
  rfl
@[simp] theorem setRotation_trace (q : Rotation) (s : State) :
    (setRotation q s).trace = s.trace :=
  rfl
@[simp] theorem setRotation_port (q : Rotation) (s : State) : (setRotation q s).port = s.port := rfl
@[simp] theorem setRotation_answers (q : Rotation) (s : State) :
    (setRotation q s).answers = s.answers :=
  rfl
@[simp] theorem setRotation_draws (q : Rotation) (s : State) :
    (setRotation q s).draws = s.draws :=
  rfl

/-! `applyReset`: the reset values of R36; the parameters, the trace and the other agents stay. -/

@[simp] theorem applyReset_par (c : CfgInputs) (s : State) : (applyReset c s).par = s.par := rfl
@[simp] theorem applyReset_cfgW (c : CfgInputs) (s : State) : (applyReset c s).cfgW = c.w := rfl
@[simp] theorem applyReset_cfgH (c : CfgInputs) (s : State) : (applyReset c s).cfgH = c.h := rfl
@[simp] theorem applyReset_cfgBgr (c : CfgInputs) (s : State) :
    (applyReset c s).cfgBgr = c.bgr :=
  rfl
@[simp] theorem applyReset_cfgRowOff (c : CfgInputs) (s : State) :
    (applyReset c s).cfgRowOff = c.rowOff :=
  rfl
@[simp] theorem applyReset_cfgColOff (c : CfgInputs) (s : State) :
    (applyReset c s).cfgColOff = c.colOff :=
  rfl
@[simp] theorem applyReset_cfgDcPresent (c : CfgInputs) (s : State) :
    (applyReset c s).cfgDcPresent = c.dcPresent :=
  rfl
@[simp] theorem applyReset_colorMode (c : CfgInputs) (s : State) :
    (applyReset c s).colorMode = s.colorMode :=
  rfl
@[simp] theorem applyReset_rot (c : CfgInputs) (s : State) :
    (applyReset c s).rot = rotationModFour c.rotInit :=
  rfl
@[simp] theorem applyReset_rowOff (c : CfgInputs) (s : State) :
    (applyReset c s).rowOff = (offsets c.rowOff c.colOff (rotationModFour c.rotInit)).1 :=
  rfl
@[simp] theorem applyReset_colOff (c : CfgInputs) (s : State) :
    (applyReset c s).colOff = (offsets c.rowOff c.colOff (rotationModFour c.rotInit)).2 :=
  rfl
@[simp] theorem applyReset_dc (c : CfgInputs) (s : State) : (applyReset c s).dc = .unknown := rfl
@[simp] theorem applyReset_live (c : CfgInputs) (s : State) :
    (applyReset c s).live = resetChecksPass c.dcPresent c.w c.h :=
  rfl
@[simp] theorem applyReset_phase (c : CfgInputs) (s : State) : (applyReset c s).phase = .idle := rfl
@[simp] theorem applyReset_rspStatus (c : CfgInputs) (s : State) :
    (applyReset c s).rspStatus = none :=
  rfl
@[simp] theorem applyReset_rspResult (c : CfgInputs) (s : State) :
    (applyReset c s).rspResult = none :=
  rfl
@[simp] theorem applyReset_trace (c : CfgInputs) (s : State) :
    (applyReset c s).trace = s.trace :=
  rfl
@[simp] theorem applyReset_port (c : CfgInputs) (s : State) : (applyReset c s).port = s.port := rfl
@[simp] theorem applyReset_answers (c : CfgInputs) (s : State) :
    (applyReset c s).answers = s.answers :=
  rfl
@[simp] theorem applyReset_draws (c : CfgInputs) (s : State) :
    (applyReset c s).draws = s.draws :=
  rfl

/-! `lineSet`: `DC`, one event and one answer. -/

@[simp] theorem lineSet_par (level : Level) (s : State) : (lineSet level s).1.par = s.par := rfl
@[simp] theorem lineSet_cfgW (level : Level) (s : State) : (lineSet level s).1.cfgW = s.cfgW := rfl
@[simp] theorem lineSet_cfgH (level : Level) (s : State) : (lineSet level s).1.cfgH = s.cfgH := rfl
@[simp] theorem lineSet_cfgBgr (level : Level) (s : State) :
    (lineSet level s).1.cfgBgr = s.cfgBgr :=
  rfl
@[simp] theorem lineSet_cfgRowOff (level : Level) (s : State) :
    (lineSet level s).1.cfgRowOff = s.cfgRowOff :=
  rfl
@[simp] theorem lineSet_cfgColOff (level : Level) (s : State) :
    (lineSet level s).1.cfgColOff = s.cfgColOff :=
  rfl
@[simp] theorem lineSet_cfgDcPresent (level : Level) (s : State) :
    (lineSet level s).1.cfgDcPresent = s.cfgDcPresent :=
  rfl
@[simp] theorem lineSet_colorMode (level : Level) (s : State) :
    (lineSet level s).1.colorMode = s.colorMode :=
  rfl
@[simp] theorem lineSet_rot (level : Level) (s : State) : (lineSet level s).1.rot = s.rot := rfl
@[simp] theorem lineSet_rowOff (level : Level) (s : State) :
    (lineSet level s).1.rowOff = s.rowOff :=
  rfl
@[simp] theorem lineSet_colOff (level : Level) (s : State) :
    (lineSet level s).1.colOff = s.colOff :=
  rfl
@[simp] theorem lineSet_dc (level : Level) (s : State) :
    (lineSet level s).1.dc = dcAfter level (answerAt s 0).reply :=
  rfl
@[simp] theorem lineSet_live (level : Level) (s : State) : (lineSet level s).1.live = s.live := rfl
@[simp] theorem lineSet_phase (level : Level) (s : State) :
    (lineSet level s).1.phase = s.phase :=
  rfl
@[simp] theorem lineSet_rspStatus (level : Level) (s : State) :
    (lineSet level s).1.rspStatus = s.rspStatus :=
  rfl
@[simp] theorem lineSet_rspResult (level : Level) (s : State) :
    (lineSet level s).1.rspResult = s.rspResult :=
  rfl
@[simp] theorem lineSet_trace (level : Level) (s : State) :
    (lineSet level s).1.trace = s.trace ++ [.line level (answerAt s 0).reply] :=
  rfl
@[simp] theorem lineSet_port (level : Level) (s : State) : (lineSet level s).1.port = s.port := rfl
@[simp] theorem lineSet_answers (level : Level) (s : State) :
    (lineSet level s).1.answers = s.answers.drop 1 :=
  rfl
@[simp] theorem lineSet_draws (level : Level) (s : State) :
    (lineSet level s).1.draws = s.draws + (1 - s.answers.length) :=
  rfl

/-! `busWrite`: one event and one answer. -/

@[simp] theorem busWrite_par (bs : List Byte) (s : State) : (busWrite bs s).1.par = s.par := rfl
@[simp] theorem busWrite_cfgW (bs : List Byte) (s : State) : (busWrite bs s).1.cfgW = s.cfgW := rfl
@[simp] theorem busWrite_cfgH (bs : List Byte) (s : State) : (busWrite bs s).1.cfgH = s.cfgH := rfl
@[simp] theorem busWrite_cfgBgr (bs : List Byte) (s : State) :
    (busWrite bs s).1.cfgBgr = s.cfgBgr :=
  rfl
@[simp] theorem busWrite_cfgRowOff (bs : List Byte) (s : State) :
    (busWrite bs s).1.cfgRowOff = s.cfgRowOff :=
  rfl
@[simp] theorem busWrite_cfgColOff (bs : List Byte) (s : State) :
    (busWrite bs s).1.cfgColOff = s.cfgColOff :=
  rfl
@[simp] theorem busWrite_cfgDcPresent (bs : List Byte) (s : State) :
    (busWrite bs s).1.cfgDcPresent = s.cfgDcPresent :=
  rfl
@[simp] theorem busWrite_colorMode (bs : List Byte) (s : State) :
    (busWrite bs s).1.colorMode = s.colorMode :=
  rfl
@[simp] theorem busWrite_rot (bs : List Byte) (s : State) : (busWrite bs s).1.rot = s.rot := rfl
@[simp] theorem busWrite_rowOff (bs : List Byte) (s : State) :
    (busWrite bs s).1.rowOff = s.rowOff :=
  rfl
@[simp] theorem busWrite_colOff (bs : List Byte) (s : State) :
    (busWrite bs s).1.colOff = s.colOff :=
  rfl
@[simp] theorem busWrite_dc (bs : List Byte) (s : State) : (busWrite bs s).1.dc = s.dc := rfl
@[simp] theorem busWrite_live (bs : List Byte) (s : State) : (busWrite bs s).1.live = s.live := rfl
@[simp] theorem busWrite_phase (bs : List Byte) (s : State) :
    (busWrite bs s).1.phase = s.phase :=
  rfl
@[simp] theorem busWrite_rspStatus (bs : List Byte) (s : State) :
    (busWrite bs s).1.rspStatus = s.rspStatus :=
  rfl
@[simp] theorem busWrite_rspResult (bs : List Byte) (s : State) :
    (busWrite bs s).1.rspResult = s.rspResult :=
  rfl
@[simp] theorem busWrite_trace (bs : List Byte) (s : State) :
    (busWrite bs s).1.trace = s.trace ++ [.write bs (writeDelivered bs (answerAt s 0) (writeReply s.par.maxXfer bs (answerAt s 0)))
      (writeReply s.par.maxXfer bs (answerAt s 0))] :=
  rfl
@[simp] theorem busWrite_port (bs : List Byte) (s : State) : (busWrite bs s).1.port = s.port := rfl
@[simp] theorem busWrite_answers (bs : List Byte) (s : State) :
    (busWrite bs s).1.answers = s.answers.drop 1 :=
  rfl
@[simp] theorem busWrite_draws (bs : List Byte) (s : State) :
    (busWrite bs s).1.draws = s.draws + (1 - s.answers.length) :=
  rfl

@[simp] theorem lineSet_reply (level : Level) (s : State) :
    (lineSet level s).2 = (answerAt s 0).reply := rfl

@[simp] theorem busWrite_reply (bs : List Byte) (s : State) :
    (busWrite bs s).2 = writeReply s.par.maxXfer bs (answerAt s 0) := rfl

end Sys2Proof.Laws
end

