-- ==== Sys2Proof/Laws/Ops.lean ====
section
/-! SUPPORT. What each shared operation can do, said once: the transport's answers, a frame step, the
frame steps of a request, and a whole request. -/

namespace Sys2Proof.Laws

open Sys2Proof.Machine Sys2Proof.Safety

/-! ### The transport's answers -/

theorem skipAnswers_zero (s : State) : skipAnswers 0 s = s := by
  simp [skipAnswers]

theorem skipAnswers_skipAnswers (m n : Nat) (s : State) :
    skipAnswers m (skipAnswers n s) = skipAnswers (n + m) s := by
  simp only [skipAnswers, List.drop_drop, List.length_drop]
  congr 1
  omega

theorem answerAt_skipAnswers (n k : Nat) (s : State) :
    answerAt (skipAnswers n s) k = answerAt s (n + k) := by
  simp only [answerAt, skipAnswers, List.getElem?_drop, List.length_drop]
  cases h : s.answers[n + k]? with
  | some a => rfl
  | none =>
    have : s.answers.length ≤ n + k := by simpa using h
    simp only
    congr 1
    omega

/-- An answer depends on the transport's two fields alone. -/
theorem answerAt_congr {s t : State} (ha : s.answers = t.answers) (hd : s.draws = t.draws)
    (k : Nat) : answerAt s k = answerAt t k := by
  simp [answerAt, ha, hd]

/-! ### What a frame step may change -/

/-- `t` is `s` but for `DC`, further events, and the transport's answers moved on by one per event, the
`k`-th event recording the `k`-th answer. -/
def Emits (s t : State) : Prop :=
  ∃ es dc, (∀ k e, es[k]? = some e → answeredBy s.par.maxXfer (answerAt s k) e = true) ∧
    t = { skipAnswers es.length s with trace := s.trace ++ es, dc := dc }

theorem Emits.refl (s : State) : Emits s s := by
  refine ⟨[], s.dc, by simp, ?_⟩
  simp [skipAnswers_zero]

theorem Emits.trans {s t u : State} (h : Emits s t) (h' : Emits t u) : Emits s u := by
  obtain ⟨es, dc, hes, rfl⟩ := h
  obtain ⟨fs, dc', hfs, rfl⟩ := h'
  refine ⟨es ++ fs, dc', ?_, ?_⟩
  · intro k e hk
    by_cases hlt : k < es.length
    · exact hes k e (by rwa [List.getElem?_append_left hlt] at hk)
    · have hle : es.length ≤ k := Nat.le_of_not_lt hlt
      have ha := (answerAt_congr rfl rfl (k - es.length)).trans
        (answerAt_skipAnswers es.length (k - es.length) s)
      rw [show es.length + (k - es.length) = k by omega] at ha
      rw [List.getElem?_append_right hle] at hk
      rw [← ha]
      exact hfs _ e hk
  simp only [skipAnswers, List.append_assoc, List.length_append, List.drop_drop, List.length_drop]
  congr 1
  omega

theorem lineSet_emits (level : Level) (s : State) : Emits s (lineSet level s).1 :=
  ⟨[.line level (answerAt s 0).reply], _, by
    intro k e h
    cases k with
    | zero => simp only [List.getElem?_cons_zero, Option.some.injEq] at h; simp [← h, answeredBy]
    | succ k => simp at h, rfl⟩

theorem busWrite_emits (bs : List Byte) (s : State) : Emits s (busWrite bs s).1 := by
  refine ⟨[.write bs _ _], s.dc, ?_, rfl⟩
  intro k e h
  cases k with
  | zero =>
    simp only [List.getElem?_cons_zero, Option.some.injEq] at h
    simp [← h, answeredBy, writeReply]
  | succ k => simp at h

/-! ### The frame step -/

/-- A frame step whose line-set fails: no write, `DC` unknown, stage 0 (R90). -/
theorem frame_line_fail {level : Level} {s : State} (bs : List Byte) (step : Nat)
    (h : (answerAt s 0).reply = .fail) :
    frame level bs step s = ((lineSet level s).1, some (failureRecord step .lineSet)) := by
  simp [frame, h]

/-- A frame step of no bytes whose line-set succeeds: no write (R90). -/
theorem frame_empty_ok {level : Level} {s : State} (step : Nat) (h : (answerAt s 0).reply = .ok) :
    frame level [] step s = ((lineSet level s).1, none) := by
  simp [frame, frameWrite, h]

/-- A frame step whose line-set succeeds and whose write fails (R90). -/
theorem frame_write_fail {level : Level} {bs : List Byte} {s : State} (step : Nat)
    (hbs : bs ≠ []) (h0 : (answerAt s 0).reply = .ok)
    (h1 : writeReply s.par.maxXfer bs (answerAt s 1) = .fail) :
    frame level bs step s =
      ((busWrite bs (lineSet level s).1).1, some (failureRecord step .write)) := by
  have e : answerAt (lineSet level s).1 0 = answerAt s 1 :=
    (answerAt_congr rfl rfl 0).trans (answerAt_skipAnswers 1 0 s)
  simp [frame, frameWrite, h0, hbs, e, h1]

/-- A frame step that succeeds with a write (R90). -/
theorem frame_write_ok {level : Level} {bs : List Byte} {s : State} (step : Nat)
    (hbs : bs ≠ []) (h0 : (answerAt s 0).reply = .ok)
    (h1 : writeReply s.par.maxXfer bs (answerAt s 1) = .ok) :
    frame level bs step s = ((busWrite bs (lineSet level s).1).1, none) := by
  have e : answerAt (lineSet level s).1 0 = answerAt s 1 :=
    (answerAt_congr rfl rfl 0).trans (answerAt_skipAnswers 1 0 s)
  simp [frame, frameWrite, h0, hbs, e, h1]

/-- All a frame step can do: one of the four cases of R90. -/
theorem frame_cases (level : Level) (bs : List Byte) (step : Nat) (s : State) :
    ((answerAt s 0).reply = .fail ∧
      frame level bs step s = ((lineSet level s).1, some (failureRecord step .lineSet))) ∨
    ((answerAt s 0).reply = .ok ∧ bs = [] ∧
      frame level bs step s = ((lineSet level s).1, none)) ∨
    ((answerAt s 0).reply = .ok ∧ bs ≠ [] ∧
      writeReply s.par.maxXfer bs (answerAt s 1) = .fail ∧
      frame level bs step s =
        ((busWrite bs (lineSet level s).1).1, some (failureRecord step .write))) ∨
    ((answerAt s 0).reply = .ok ∧ bs ≠ [] ∧
      writeReply s.par.maxXfer bs (answerAt s 1) = .ok ∧
      frame level bs step s = ((busWrite bs (lineSet level s).1).1, none)) := by
  cases h0 : (answerAt s 0).reply with
  | fail => exact .inl ⟨rfl, frame_line_fail bs step h0⟩
  | ok =>
    by_cases hbs : bs = []
    · subst hbs
      exact .inr (.inl ⟨rfl, rfl, frame_empty_ok step h0⟩)
    · cases h1 : writeReply s.par.maxXfer bs (answerAt s 1) with
      | fail => exact .inr (.inr (.inl ⟨rfl, hbs, rfl, frame_write_fail step hbs h0 h1⟩))
      | ok => exact .inr (.inr (.inr ⟨rfl, hbs, rfl, frame_write_ok step hbs h0 h1⟩))

theorem frame_emits (level : Level) (bs : List Byte) (step : Nat) (s : State) :
    Emits s (frame level bs step s).1 := by
  obtain ⟨_, e⟩ | ⟨_, _, e⟩ | ⟨_, _, _, e⟩ | ⟨_, _, _, e⟩ := frame_cases level bs step s <;> rw [e]
  · exact lineSet_emits level s
  · exact lineSet_emits level s
  · exact (lineSet_emits level s).trans (busWrite_emits bs _)
  · exact (lineSet_emits level s).trans (busWrite_emits bs _)

/-- The failure record of a frame step names that step (R171). -/
theorem frame_record {level : Level} {bs : List Byte} {step : Nat} {s : State} {r : Word}
    (h : (frame level bs step s).2 = some r) : ∃ stage, r = failureRecord step stage := by
  obtain ⟨_, e⟩ | ⟨_, _, e⟩ | ⟨_, _, _, e⟩ | ⟨_, _, _, e⟩ := frame_cases level bs step s <;>
    rw [e] at h <;> simp at h
  · exact ⟨_, h.symm⟩
  · exact ⟨_, h.symm⟩

/-! ### The frame steps of a request -/

theorem frames_nil (step : Nat) (s : State) : frames [] step s = (s, none) := rfl

theorem frames_cons_ok {f : FrameStep} {fs : List FrameStep} {step : Nat} {s t : State}
    (h : frame f.1 f.2 step s = (t, none)) : frames (f :: fs) step s = frames fs (step + 1) t := by
  simp [frames, h]

theorem frames_cons_fail {f : FrameStep} {fs : List FrameStep} {step : Nat} {s t : State} {r : Word}
    (h : frame f.1 f.2 step s = (t, some r)) : frames (f :: fs) step s = (t, some r) := by
  simp [frames, h]

theorem frames_emits (fs : List FrameStep) (step : Nat) (s : State) :
    Emits s (frames fs step s).1 := by
  induction fs generalizing step s with
  | nil => exact Emits.refl s
  | cons f fs ih =>
    have hf := frame_emits f.1 f.2 step s
    rcases h : frame f.1 f.2 step s with ⟨t, _ | r⟩
    · rw [frames_cons_ok h]
      rw [h] at hf
      exact hf.trans (ih (step + 1) t)
    · rw [frames_cons_fail h]
      rwa [h] at hf

/-- A failure record of a request's frame steps names one of them (R171). -/
theorem frames_record {fs : List FrameStep} {step : Nat} {s : State} {r : Word}
    (h : (frames fs step s).2 = some r) :
    ∃ k stage, k < fs.length ∧ r = failureRecord (step + k) stage := by
  induction fs generalizing step s with
  | nil => simp [frames_nil] at h
  | cons f fs ih =>
    rcases hf : frame f.1 f.2 step s with ⟨t, _ | r'⟩
    · rw [frames_cons_ok hf] at h
      obtain ⟨k, stage, hk, e⟩ := ih h
      exact ⟨k + 1, stage, by simpa using hk, by rw [e]; congr 1; omega⟩
    · rw [frames_cons_fail hf] at h
      obtain rfl : r' = r := by simpa using h
      obtain ⟨stage, e⟩ := frame_record (by rw [hf])
      exact ⟨0, stage, by simp, e⟩

/-! ### What a frame step does not read -/

/-- `b` in all that a frame step does not touch, `s` in what it reads and writes: the parameters, the
trace, `DC` and the transport's answers. -/
def carry (b s : State) : State :=
  { b with par := s.par, trace := s.trace, dc := s.dc, answers := s.answers, draws := s.draws }

theorem carry_self (s : State) : carry s s = s := rfl

theorem lineSet_carry (b : State) (level : Level) (s : State) :
    lineSet level (carry b s) = (carry b (lineSet level s).1, (lineSet level s).2) := rfl

theorem busWrite_carry (b : State) (bs : List Byte) (s : State) :
    busWrite bs (carry b s) = (carry b (busWrite bs s).1, (busWrite bs s).2) := rfl

theorem frame_carry (b : State) (level : Level) (bs : List Byte) (step : Nat) (s : State) :
    frame level bs step (carry b s) =
      (carry b (frame level bs step s).1, (frame level bs step s).2) := by
  obtain ⟨h, e⟩ | ⟨h, hb, e⟩ | ⟨h, hb, h1, e⟩ | ⟨h, hb, h1, e⟩ := frame_cases level bs step s <;>
    rw [e]
  · exact frame_line_fail (s := carry b s) bs step h
  · subst hb
    exact frame_empty_ok (s := carry b s) step h
  · exact frame_write_fail (s := carry b s) step hb h h1
  · exact frame_write_ok (s := carry b s) step hb h h1

/-- The frame steps of a request leave alone, and do not depend on, everything but the parameters, the
trace, `DC` and the transport's answers. -/
theorem frames_carry (b : State) (fs : List FrameStep) (step : Nat) (s : State) :
    frames fs step (carry b s) = (carry b (frames fs step s).1, (frames fs step s).2) := by
  induction fs generalizing step s with
  | nil => rfl
  | cons f fs ih =>
    rcases h : frame f.1 f.2 step s with ⟨t, _ | r⟩
    · have h' : frame f.1 f.2 step (carry b s) = (carry b t, none) := by rw [frame_carry, h]
      rw [frames_cons_ok h, frames_cons_ok h']
      exact ih (step + 1) t
    · have h' : frame f.1 f.2 step (carry b s) = (carry b t, some r) := by rw [frame_carry, h]
      rw [frames_cons_fail h, frames_cons_fail h']

/-! ### A property that every frame step keeps -/

/-- What both transactions keep, the frame steps of a request keep. -/
theorem frames_keep {P : State → Prop} (hline : ∀ level s, P s → P (lineSet level s).1)
    (hwrite : ∀ level bs s, bs ≠ [] → (answerAt s 0).reply = .ok → P s →
      P (busWrite bs (lineSet level s).1).1)
    (fs : List FrameStep) (step : Nat) (s : State) (h : P s) : P (frames fs step s).1 := by
  induction fs generalizing step s with
  | nil => exact h
  | cons f fs ih =>
    have hf : P (frame f.1 f.2 step s).1 := by
      obtain ⟨_, e⟩ | ⟨_, _, e⟩ | ⟨h0, hb, _, e⟩ | ⟨h0, hb, _, e⟩ :=
        frame_cases f.1 f.2 step s <;> rw [e]
      · exact hline _ s h
      · exact hline _ s h
      · exact hwrite _ _ s hb h0 h
      · exact hwrite _ _ s hb h0 h
    rcases hr : frame f.1 f.2 step s with ⟨t, _ | r⟩
    · rw [frames_cons_ok hr]
      rw [hr] at hf
      exact ih (step + 1) t hf
    · rw [frames_cons_fail hr]
      rwa [hr] at hf

/-! ### Frame steps that succeed, and the first that fails -/

/-- The `DC` latch after frame steps that all succeed. -/
def lastDc (dc : Dc) : List FrameStep → Dc
  | [] => dc
  | f :: fs => lastDc (.driven f.1) fs

/-- The state after frame steps of at least one byte that all succeed. -/
def afterOk (fs : List FrameStep) (s : State) : State :=
  { skipAnswers (2 * fs.length) s with
    trace := s.trace ++ fs.flatMap okEvents, dc := lastDc s.dc fs }

/-- A frame step whose write fits: what R90 asks of it to succeed on two `ok` answers. -/
abbrev Fits (maxXfer : Nat) (f : FrameStep) : Prop := f.2 ≠ [] ∧ f.2.length ≤ maxXfer

theorem writeReply_fits {maxXfer : Nat} {bs : List Byte} {a : Answer} (h : bs.length ≤ maxXfer) :
    writeReply maxXfer bs a = a.reply := by
  simp [writeReply, Nat.not_lt.mpr h]

theorem writeReply_long {maxXfer : Nat} {bs : List Byte} {a : Answer} (h : maxXfer < bs.length) :
    writeReply maxXfer bs a = .fail := by
  simp [writeReply, h]

theorem frame_ok {f : FrameStep} {s : State} (step : Nat) (hf : Fits s.par.maxXfer f)
    (h : transportOk 2 s) : frame f.1 f.2 step s = (afterOk [f] s, none) := by
  have h1 : writeReply s.par.maxXfer f.2 (answerAt s 1) = .ok := by
    rw [writeReply_fits hf.2, h 1 (by omega)]
  rw [frame_write_ok step hf.1 (h 0 (by omega)) h1]
  have e : answerAt (lineSet f.1 s).1 0 = answerAt s 1 :=
    (answerAt_congr rfl rfl 0).trans (answerAt_skipAnswers 1 0 s)
  simp only [busWrite, e, lineSet_par, h1]
  simp [afterOk, lineSet, okEvents, writeDelivered, lastDc, h 0 (by omega), dcAfter, skipAnswers]
  omega

theorem afterOk_append (fs gs : List FrameStep) (s : State) :
    afterOk gs (afterOk fs s) = afterOk (fs ++ gs) s := by
  have hdc : ∀ (fs : List FrameStep) dc, lastDc (lastDc dc fs) gs = lastDc dc (fs ++ gs) := by
    intro fs
    induction fs with
    | nil => intro dc; rfl
    | cons f fs ih => intro dc; exact ih _
  simp only [afterOk, skipAnswers, List.drop_drop, List.length_drop, List.flatMap_append,
    List.append_assoc, List.length_append, hdc]
  congr 1
  · congr 1; omega
  · omega

theorem answerAt_afterOk (fs : List FrameStep) (s : State) (k : Nat) :
    answerAt (afterOk fs s) k = answerAt s (2 * fs.length + k) :=
  (answerAt_congr rfl rfl k).trans (answerAt_skipAnswers _ _ s)

theorem transportOk_afterOk {n : Nat} {fs : List FrameStep} {s : State}
    (h : transportOk (2 * fs.length + n) s) : transportOk n (afterOk fs s) := by
  intro k hk
  rw [answerAt_afterOk]
  exact h _ (by omega)

/-- Frame steps that all succeed. -/
theorem frames_ok {fs : List FrameStep} {s : State} (step : Nat)
    (hf : ∀ f ∈ fs, Fits s.par.maxXfer f) (h : transportOk (2 * fs.length) s) :
    frames fs step s = (afterOk fs s, none) := by
  induction fs generalizing step s with
  | nil => simp [frames, afterOk, lastDc, skipAnswers_zero]
  | cons f fs ih =>
    have h2 : transportOk 2 s := fun k hk => h k (by simp only [List.length_cons]; omega)
    rw [frames_cons_ok (frame_ok step (hf f (by simp)) h2)]
    rw [ih (step + 1) (s := afterOk [f] s) (fun g hg => hf g (by simp [hg]))
      (transportOk_afterOk (fs := [f]) (by
        intro k hk; exact h k (by simp only [List.length_cons, List.length_nil] at hk ⊢; omega)))]
    rw [afterOk_append]
    rfl

/-- Frame steps behind others that succeed. -/
theorem frames_append_ok {fs gs : List FrameStep} {s : State} (step : Nat)
    (hf : ∀ f ∈ fs, Fits s.par.maxXfer f) (h : transportOk (2 * fs.length) s) :
    frames (fs ++ gs) step s = frames gs (step + fs.length) (afterOk fs s) := by
  induction fs generalizing step s with
  | nil => simp [afterOk, lastDc, skipAnswers_zero]
  | cons f fs ih =>
    have h2 : transportOk 2 s := fun k hk => h k (by simp only [List.length_cons]; omega)
    rw [List.cons_append, frames_cons_ok (frame_ok step (hf f (by simp)) h2)]
    rw [ih (step + 1) (s := afterOk [f] s) (fun g hg => hf g (by simp [hg]))
      (transportOk_afterOk (fs := [f]) (by
        intro k hk; exact h k (by simp only [List.length_cons, List.length_nil] at hk ⊢; omega)))]
    rw [afterOk_append]
    congr 1
    simp only [List.length_cons]
    omega

/-! ### A request -/

/-- Every request answers a next state. -/
theorem runRequest_next (body : State → State) (s : State) :
    runRequest body s =
      .next (if s.live then body (accept s) else raiseError .configurationError 0 (accept s)) := rfl

theorem runRequest_live {body : State → State} {s : State} (h : s.live = true) :
    runRequest body s = .next (body (accept s)) := by
  simp [runRequest, h]

theorem runRequest_dead {body : State → State} {s : State} (h : s.live = false) :
    runRequest body s = .next (raiseError .configurationError 0 (accept s)) := by
  simp [runRequest, h]

/-- All that the end of a request's frame steps can do (R78, R171, R176). -/
theorem runFrames_cases (fs : List FrameStep) (s : State) :
    runFrames fs s = respond .ok 0 (frames fs 0 s).1 ∨
    ∃ k stage, k < fs.length ∧
      runFrames fs s = respond .transportError (failureRecord k stage) (frames fs 0 s).1 := by
  unfold runFrames endFrames
  cases h : (frames fs 0 s).2 with
  | none => exact .inl rfl
  | some r =>
    obtain ⟨k, stage, hk, e⟩ := frames_record h
    rw [Nat.zero_add] at e
    exact .inr ⟨k, stage, hk, by rw [e]; rfl⟩

end Sys2Proof.Laws
end

