-- ==== Sys2Proof/Laws/Exec.lean ====
section
/-! SUPPORT. What a request and a step can do, said once: exec as one shared shape, its inversion, and
the inversion of step. -/

namespace Sys2Proof.Laws

open Sys2Proof.Machine Sys2Proof.Safety

/-- The body of each request, what `runRequest` runs on the accepted state. -/
def bodyOf (i : Instr) (t : State) : State :=
  match i with
  | .cvt r g b _ => respond .ok ((rgb565 r g b).setWidth 32) t
  | .size => respond .ok (sizeResult (currentSize t)) t
  | i => runFrames (frameStepsOf t i) (beforeFrames t i)

/-- Every meaning is one `runRequest`. -/
theorem exec_eq_runRequest (i : Instr) (s : State) : exec i s = runRequest (bodyOf i) s := by
  cases i <;> rfl

/-- exec answers a next state on every request and state. -/
theorem exec_total (i : Instr) (s : State) : ∃ t, exec i s = .next t := by
  rw [exec_eq_runRequest, runRequest_next]
  exact ⟨_, rfl⟩

theorem frameStepsOf_length (s : State) (i : Instr) : (frameStepsOf s i).length ≤ 5 := by
  cases i <;> simp [frameStepsOf, rotFrames, winFrames]

/-- All a live request can do: its frame steps as far as they go, then one response, `OK` or a failure
record that names one of them. -/
theorem bodyOf_cases (i : Instr) (t : State) :
    ∃ st r, bodyOf i t = respond st r (frames (frameStepsOf t i) 0 (beforeFrames t i)).1 ∧
      (st = .ok ∨ st = .transportError ∧
        ∃ k stage, k < (frameStepsOf t i).length ∧ r = failureRecord k stage) := by
  have frm : ∀ fs u, ∃ st r, runFrames fs u = respond st r (frames fs 0 u).1 ∧
      (st = .ok ∨ st = .transportError ∧
        ∃ k stage, k < fs.length ∧ r = failureRecord k stage) := by
    intro fs u
    obtain e | ⟨k, stage, hk, e⟩ := runFrames_cases fs u
    · exact ⟨_, _, e, .inl rfl⟩
    · exact ⟨_, _, e, .inr ⟨rfl, k, stage, hk, rfl⟩⟩
  cases i with
  | cvt r g b a => exact ⟨_, _, rfl, .inl rfl⟩
  | size => exact ⟨_, _, rfl, .inl rfl⟩
  | sendc p => exact frm _ _
  | sendd p => exact frm _ _
  | cmd c => exact frm _ _
  | dat b => exact frm _ _
  | rot r => exact frm _ _
  | win => exact frm _ _

/-- ROT's writes carry one and two bytes, so `MAX_XFER ≥ 2` never bounds them (R155). -/
theorem rotFrames_fit {m : Nat} (h : 2 ≤ m) (q : Rotation) (s : State) :
    ∀ f ∈ rotFrames q s, Fits m f := by
  simp only [rotFrames, List.forall_mem_cons, be16, Fits]
  simp
  omega

/-- WIN's writes carry one and four bytes, so `MAX_XFER ≥ 4` never bounds them (R110). -/
theorem winFrames_fit {m : Nat} (h : 4 ≤ m) (s : State) : ∀ f ∈ winFrames s, Fits m f := by
  simp only [winFrames, List.forall_mem_cons, rangeBytes, be16, Fits]
  simp
  omega

/-- The table of R154 as one case distinction. -/
theorem offsets_eq (ro co : Half) (q : Rotation) :
    offsets ro co q = (if q = 0 then ro else if q = 1 then co else 0,
      if q = 0 then co else if q = 1 then ro else 0) := by
  have hq : ∀ q : Rotation, q = 0 ∨ q = 1 ∨ q = 2 ∨ q = 3 := by decide
  rcases hq q with rfl | rfl | rfl | rfl <;> simp [offsets]

/-- The two halves of the rotation-aware size (R160). -/
theorem rotatedSize_eq (w h : Half) (q : Rotation) :
    rotatedSize w h q = (if q = 0 ∨ q = 2 then w else h, if q = 0 ∨ q = 2 then h else w) := by
  unfold rotatedSize
  split <;> rfl

/-- Inversion of exec: a dead block's answer, or a live request's. -/
theorem exec_cases {i : Instr} {s t : State} (h : exec i s = .next t) :
    (s.live = false ∧ t = respond .configurationError 0 (accept s)) ∨
    (s.live = true ∧ ∃ st r,
      t = respond st r
        (frames (frameStepsOf (accept s) i) 0 (beforeFrames (accept s) i)).1 ∧
      (st = .ok ∨ st = .transportError ∧
        ∃ k stage, k < (frameStepsOf (accept s) i).length ∧ r = failureRecord k stage)) := by
  rw [exec_eq_runRequest, runRequest_next] at h
  cases hl : s.live with
  | false =>
    simp only [hl, Bool.false_eq_true, if_false, Host.Outcome.next.injEq] at h
    exact .inl ⟨rfl, h.symm⟩
  | true =>
    simp only [hl, if_true, Host.Outcome.next.injEq] at h
    obtain ⟨st, r, e, hr⟩ := bodyOf_cases i (accept s)
    exact .inr ⟨rfl, st, r, by rw [← h, e], hr⟩

/-- What taking a request at the port can answer as a next state: exec of the decoded request, or the
rejection of an illegal descriptor. -/
theorem takeRequest_cases {d : Descriptor} {s t : State} (h : takeRequest d s = .next t) :
    s.phase = .idle ∧ d.wellFormed = true ∧
      ((∃ i, decode d = .ok i ∧ exec i s = .next t) ∨
       (∃ e, decode d = .error e ∧ rejectIllegal s = .next t)) := by
  unfold takeRequest at h
  cases hp : s.phase with
  | busy => simp [hp] at h
  | idle =>
    simp only [hp] at h
    by_cases hw : d.wellFormed = true
    · refine ⟨rfl, hw, ?_⟩
      simp only [hw, if_true, execDescriptor] at h
      cases hd : decode d with
      | ok i => exact .inl ⟨i, rfl, by simpa [hd] using h⟩
      | error e => exact .inr ⟨e, rfl, by simpa [hd] using h⟩
    · simp [hw] at h

/-- What rejecting an illegal descriptor answers (R173, behind R172). -/
theorem rejectIllegal_cases {s t : State} (h : rejectIllegal s = .next t) :
    (s.live = false ∧ t = respond .configurationError 0 (accept s)) ∨
    (s.live = true ∧ t = respond .illegalRequest 0 (accept s)) := by
  unfold rejectIllegal at h
  rw [runRequest_next] at h
  cases hl : s.live with
  | false =>
    simp only [hl, Bool.false_eq_true, if_false, Host.Outcome.next.injEq] at h
    exact .inl ⟨rfl, h.symm⟩
  | true =>
    simp only [hl, if_true, Host.Outcome.next.injEq] at h
    exact .inr ⟨rfl, h.symm⟩

/-- Inversion of step: nothing to do, a reset, a request, or a request that a reset abandons. -/
theorem step_cases {s t : State} (h : step s = .next t) :
    (s.port = [] ∧ t = s) ∨
    (∃ c rest, s.port = .reset c :: rest ∧ t = applyReset c { s with port := rest }) ∨
    (∃ d rest, s.port = .request d :: rest ∧ takeRequest d { s with port := rest } = .next t) ∨
    (∃ d n c rest u, s.port = .interrupted d n c :: rest ∧
      takeRequest d { s with port := rest } = .next u ∧
      t = abandonAfter n c { s with port := rest } u) := by
  unfold step takeInput at h
  cases hp : s.port with
  | nil => exact .inl ⟨rfl, by simpa [hp] using h.symm⟩
  | cons x rest =>
    cases x with
    | request d => exact .inr (.inr (.inl ⟨d, rest, rfl, by simpa [hp] using h⟩))
    | reset c => exact .inr (.inl ⟨c, rest, rfl, by simpa [hp] using h.symm⟩)
    | interrupted d n c =>
      refine .inr (.inr (.inr ⟨d, n, c, rest, ?_⟩))
      simp only [hp, takeInterrupted] at h
      cases hu : takeRequest d { s with port := rest } with
      | next u => exact ⟨u, rfl, rfl, by simpa [hu] using h.symm⟩
      | fault r => simp [hu] at h
      | refused r => simp [hu] at h

/-- A taken request only appends to the trace, one event per answer. -/
theorem takeRequest_trace {d : Descriptor} {s t : State} (h : takeRequest d s = .next t) :
    ∃ es, t.trace = s.trace ++ es ∧ t.par = s.par := by
  obtain ⟨_, _, ⟨i, _, hi⟩ | ⟨e, _, he⟩⟩ := takeRequest_cases h
  · obtain ⟨_, rfl⟩ | ⟨_, st, r, rfl, _⟩ := exec_cases hi
    · exact ⟨[], by simp, rfl⟩
    · obtain ⟨es, dc, _, e⟩ := frames_emits (frameStepsOf (accept s) i) 0 (beforeFrames (accept s) i)
      refine ⟨es, ?_, ?_⟩ <;> simp only [respond_trace, respond_par] <;> rw [e] <;> cases i <;> rfl
  · obtain ⟨_, rfl⟩ | ⟨_, rfl⟩ := rejectIllegal_cases he <;> exact ⟨[], by simp, rfl⟩

end Sys2Proof.Laws
end

