-- ==== Sys2Proof/Laws/PerInstr.lean ====
section
/-! SUPPORT. Facts about every request as syntax, one lemma per constructor. -/

namespace Sys2Proof.Laws.EncodesLegally

/-- The fields of a control word (30_encoding.md R72). -/
theorem controlWord_fields (op : Byte) (n : Nat) :
    (controlWord op n).extractLsb' 0 8 = op ∧ (controlWord op n).extractLsb' 8 8 = 0 ∧
    (controlWord op n).extractLsb' 16 16 = BitVec.ofNat 16 n := by
  have key : ∀ i, (controlWord op n).getLsbD i =
      bif decide (i < 8) then op.getLsbD i
      else bif decide (i < 16) then false else (BitVec.ofNat 16 n).getLsbD (i - 16) := by
    intro i
    change BitVec.getLsbD (w := 16 + 8 + 8) (BitVec.ofNat 16 n ++ (0 : BitVec 8) ++ op) i = _
    rw [BitVec.getLsbD_append, BitVec.getLsbD_append]
    by_cases h : i < 8
    · simp [h]
    · by_cases h' : i < 16
      · have : i - 8 < 8 := by omega
        simp [h, h', this]
      · have : ¬ i - 8 < 8 := by omega
        have e : i - 8 - 8 = i - 16 := by omega
        simp [h, h', this, e]
  refine ⟨?_, ?_, ?_⟩ <;> ext i hi <;> simp only [BitVec.getElem_extractLsb', key]
  · simp [hi]
  · have : 8 + i < 16 := by omega
    simp [this]
  · have h1 : ¬ 16 + i < 8 := by omega
    have h2 : ¬ 16 + i < 16 := by omega
    simp [h1, hi]

/-- The descriptor of a request has a zero `RSV`, an operation number of R73 and, where the request is
well-formed, a payload of `LEN` bytes (R71, R72). -/
def Statement (i : Instr) : Prop :=
  (encode i).rsv = 0 ∧ (encode i).op ∈ legalOps ∧
    (i.wellFormed = true → (encode i).wellFormed = true)

theorem of_payload (op : Byte) (aw : Word) (p : List Byte) (h : op ∈ legalOps) :
    (Descriptor.mk (controlWord op p.length) aw p).rsv = 0 ∧
    (Descriptor.mk (controlWord op p.length) aw p).op ∈ legalOps ∧
    (p.length ≤ maxPayload →
      (Descriptor.mk (controlWord op p.length) aw p).wellFormed = true) := by
  obtain ⟨h0, h8, h16⟩ := controlWord_fields op p.length
  refine ⟨h8, by rw [Descriptor.op, h0]; exact h, fun hp => ?_⟩
  simp only [maxPayload] at hp
  simp only [Descriptor.wellFormed, Descriptor.len, h16, BitVec.toNat_ofNat, beq_iff_eq]
  omega

theorem sendc (p : List Byte) : Statement (.sendc p) := by
  simpa [Statement, encode, Instr.wellFormed] using of_payload 0x01 0 p (by decide)

theorem sendd (p : List Byte) : Statement (.sendd p) := by
  simpa [Statement, encode, Instr.wellFormed] using of_payload 0x02 0 p (by decide)

theorem cmd (c : Byte) : Statement (.cmd c) := by
  simpa [Statement, encode, Instr.wellFormed, maxPayload] using
    of_payload 0x03 ((0 : BitVec 24) ++ c) [] (by decide)

theorem dat (b : Byte) : Statement (.dat b) := by
  simpa [Statement, encode, Instr.wellFormed, maxPayload] using
    of_payload 0x04 ((0 : BitVec 24) ++ b) [] (by decide)

theorem cvt (r g b a : Byte) : Statement (.cvt r g b a) := by
  simpa [Statement, encode, Instr.wellFormed, maxPayload] using
    of_payload 0x05 (r ++ g ++ b ++ a) [] (by decide)

theorem rot (r : Word) : Statement (.rot r) := by
  simpa [Statement, encode, Instr.wellFormed, maxPayload] using of_payload 0x06 r [] (by decide)

theorem size : Statement .size := by
  simpa [Statement, encode, Instr.wellFormed, maxPayload] using of_payload 0x07 0 [] (by decide)

theorem win : Statement .win := by
  simpa [Statement, encode, Instr.wellFormed, maxPayload] using of_payload 0x08 0 [] (by decide)

end Sys2Proof.Laws.EncodesLegally
end

