-- ==== Sys2Proof/Tests/Slice0.lean ====
section
/-! SUPPORT. The model's own tests: the ill-formed smoke test, descriptors written out from
30_encoding.md, single requests from the vectors of 95_test_vectors.md, and for every statement with
hypotheses a state and operands that meet them together. -/

namespace Sys2Proof.Tests

open Sys2Proof.Machine Sys2Proof.Safety

/-! ### Small states -/

/-- The reference parameters of 93_implementation_defined.md I2 and I3, `MAX_XFER` as given. -/
def params (maxXfer : Nat) : Params :=
  { maxXfer := maxXfer, busClockHz := 16000000, cmdCaset := 0x2A, cmdRaset := 0x2B, cmdRamwr := 0x2C
    cmdMadctl := 0x36, cmdVscsad := 0x37, madctl := Config.referenceMadctl, scrollPartner := .rot0 }

/-- The state after a reset with the given configuration inputs. -/
def resetWith (c : CfgInputs) : State := applyReset c { State.reset with par := params 4096 }

/-- S240 and S240x135 of 95_test_vectors.md. -/
def s240 : State := resetWith Config.resetInputs
def s240x135 : State := resetWith { Config.resetInputs with h := 135 }

/-- Configurations that fail the reset checks (T85, T86, T87). -/
def sNoLine : State := resetWith { Config.resetInputs with dcPresent := false }
def sNoWidth : State := resetWith { Config.resetInputs with w := 0 }
def sTooHigh : State := resetWith { Config.resetInputs with h := 321 }

def okAnswer : Answer := ⟨.ok, 0⟩

/-- The transport answers `ok` `n` times, then fails after `k` bytes, then answers `ok`. -/
def failingAt (n k : Nat) (s : State) : State :=
  { s with answers := List.replicate n okAnswer ++ ⟨.fail, k⟩ :: List.replicate 10 okAnswer }

/-- The transport answers `ok`. -/
def allOk (s : State) : State := { s with answers := List.replicate 12 okAnswer }

/-- `s` with another `MAX_XFER`. -/
def withMaxXfer (m : Nat) (s : State) : State := { s with par := params m }

/-- `s` with one action of the host at its port. -/
def atPort (x : PortInput) (s : State) : State := { s with port := [x] }

/-- The next state of an outcome, if it is one. -/
def nextState : Host.Outcome State Fault Refusal → Option State
  | .next s => some s
  | .fault _ => none
  | .refused _ => none

/-- What a request leaves: the trace, `DC` and the response. -/
structure View where
  trace : List Event
  dc : Dc
  status : Option Byte
  result : Option Word
deriving DecidableEq, Repr

/-- The view of the state a request leaves. -/
def viewAfter (i : Instr) (s : State) : Option View :=
  (nextState (exec i s)).map fun t => ⟨t.trace, t.dc, t.rspStatus, t.rspResult⟩

/-- The view of the state a step leaves. -/
def viewAfterStep (s : State) : Option View :=
  (nextState (step s)).map fun t => ⟨t.trace, t.dc, t.rspStatus, t.rspResult⟩

/-- The response to a request. -/
def response (i : Instr) (s : State) : Option (Option Byte × Option Word) :=
  (nextState (exec i s)).map fun t => (t.rspStatus, t.rspResult)

/-- `L0` and `L1`, and `W[bs]`, of 95_test_vectors.md. -/
def l0 : Event := .line .low .ok
def l1 : Event := .line .high .ok
def wr (bs : List Byte) : Event := .write bs bs.length .ok

/-! ### Ill-formed instructions are refused by the check (30_encoding.md R72: `LEN` is 16 bits) -/

/-- A payload of `n` zero bytes. -/
def zeros (n : Nat) : List Byte := List.replicate n 0

theorem zeros_length (n : Nat) : (zeros n).length = n := List.length_replicate

theorem test_illformed_sendc : (Instr.sendc (zeros 65536)).wellFormed = false := by
  simp only [Instr.wellFormed, zeros_length, maxPayload]
  decide

theorem test_illformed_sendd : (Instr.sendd (zeros 65536)).wellFormed = false := by
  simp only [Instr.wellFormed, zeros_length, maxPayload]
  decide

theorem test_wellformed_longest :
    (Instr.sendc (zeros 65535)).wellFormed = true ∧
    (Instr.sendd (zeros 65535)).wellFormed = true := by
  simp only [Instr.wellFormed, zeros_length, maxPayload]
  decide

theorem test_illformed_descriptor :
    Descriptor.wellFormed ⟨0x00020002, 0, [0xF8]⟩ = false ∧
    Descriptor.wellFormed ⟨0x00000001, 0, [0x29]⟩ = false := by decide

/-! ### Decoding: `CW`, `AW` and `P` of 95_test_vectors.md -/

/-- The decoded request, if the descriptor is legal. -/
def decoded (d : Descriptor) : Option Instr :=
  match decode d with
  | .ok i => some i
  | .error _ => none

/-- The reason a descriptor is illegal. -/
def decodeFailure (d : Descriptor) : Option DecodeError :=
  match decode d with
  | .ok _ => none
  | .error e => some e

theorem test_decode_sendc : decoded ⟨0x00010001, 0, [0x29]⟩ = some (.sendc [0x29]) ∧
    decoded ⟨0x00000001, 0, []⟩ = some (.sendc []) := by decide
theorem test_decode_sendd : decoded ⟨0x00020002, 0, [0xF8, 0x00]⟩ = some (.sendd [0xF8, 0x00]) ∧
    decoded ⟨0x00000002, 0, []⟩ = some (.sendd []) := by decide
theorem test_decode_cmd : decoded ⟨0x00000003, 0x00000011, []⟩ = some (.cmd 0x11) := by decide
theorem test_decode_dat : decoded ⟨0x00000004, 0x00000055, []⟩ = some (.dat 0x55) := by decide
theorem test_decode_cvt :
    decoded ⟨0x00000005, 0x123456FF, []⟩ = some (.cvt 0x12 0x34 0x56 0xFF) := by decide
theorem test_decode_rot : decoded ⟨0x00000006, 0xFFFFFFFF, []⟩ = some (.rot 0xFFFFFFFF) := by decide
theorem test_decode_size : decoded ⟨0x00000007, 0, []⟩ = some .size := by decide
theorem test_decode_win : decoded ⟨0x00000008, 0, []⟩ = some .win := by decide

/-- T80 to T84. -/
theorem test_decode_operation :
    decodeFailure ⟨0x00000000, 0, []⟩ = some .illegalOperation ∧
    decodeFailure ⟨0x00000009, 0, []⟩ = some .illegalOperation ∧
    decodeFailure ⟨0x000000FF, 0, []⟩ = some .illegalOperation ∧
    decodeFailure ⟨0x00000108, 0, []⟩ = some .reservedNotZero ∧
    decodeFailure ⟨0x0000FF06, 1, []⟩ = some .reservedNotZero := by decide

/-- T31 to T33 and the decode corner cases of WIN, SIZE and CVT. -/
theorem test_decode_operands :
    decodeFailure ⟨0x00000003, 0x00000100, []⟩ = some .argumentHighNotZero ∧
    decodeFailure ⟨0x00000001, 0x00000001, []⟩ = some .argumentNotZero ∧
    decodeFailure ⟨0x00010004, 0, [0x00]⟩ = some .lengthNotZero ∧
    decodeFailure ⟨0x00010005, 0, [0x00]⟩ = some .lengthNotZero ∧
    decodeFailure ⟨0x00000008, 0x00000001, []⟩ = some .argumentNotZero ∧
    decodeFailure ⟨0x00000007, 0x00000001, []⟩ = some .argumentNotZero := by decide

/-- The encoder writes the words of 95_test_vectors.md. -/
theorem test_encode :
    encode (.sendc [0x29]) = ⟨0x00010001, 0, [0x29]⟩ ∧
    encode (.sendd [0xF8, 0x00]) = ⟨0x00020002, 0, [0xF8, 0x00]⟩ ∧
    encode (.cmd 0x11) = ⟨0x00000003, 0x11, []⟩ ∧ encode (.dat 0x55) = ⟨0x00000004, 0x55, []⟩ ∧
    encode (.cvt 0x12 0x34 0x56 0xFF) = ⟨0x00000005, 0x123456FF, []⟩ ∧
    encode (.rot 5) = ⟨0x00000006, 5, []⟩ ∧ encode .size = ⟨0x00000007, 0, []⟩ ∧
    encode .win = ⟨0x00000008, 0, []⟩ := by decide

/-- The table word of each row runs as the first instruction after reset. -/
theorem test_first_instruction :
    ∀ w ∈ [1, 2, 3, 4, 5, 6, 7, 8],
      (nextState (step (State.reset.withFetchWord 32 w))).isSome = true := by decide

/-! ### The color converter (95_test_vectors.md V1 to V5, 2.1) -/

/-- T1 and T12. -/
theorem test_cvt : viewAfter (.cvt 0x12 0x34 0x56 0xFF) s240 =
      some ⟨[], .unknown, some 0, some 0x000011AA⟩ ∧
    viewAfter (.cvt 0x55 0xAA 0x55 0) s240 = some ⟨[], .unknown, some 0, some 0x0000554A⟩ := by decide

/-- V1, V2, V3, T4, T6. -/
theorem test_rgb565 : rgb565 255 0 0 = 0xF800 ∧ rgb565 0 255 0 = 0x07E0 ∧ rgb565 0 0 255 = 0x001F ∧
    rgb565 8 4 8 = 0x0821 ∧ rgb565 0xF7 0xFB 0xF7 = 0xF7DE := by decide

/-! ### The framer (2.2) -/

/-- T20 and T21. -/
theorem test_sendc :
    viewAfter (.sendc [0x29]) (allOk s240) =
      some ⟨[l0, wr [0x29]], .driven .low, some 0, some 0⟩ ∧
    viewAfter (.sendc []) (allOk s240) = some ⟨[l0], .driven .low, some 0, some 0⟩ := by decide

/-- T29. -/
theorem test_sendc_line_fails :
    viewAfter (.sendc [0x2C]) (failingAt 0 0 s240) =
      some ⟨[.line .low .fail], .unknown, some 1, some 0⟩ := by decide

/-- T22. -/
theorem test_sendd :
    viewAfter (.sendd [0xF8, 0x00]) (allOk s240) =
      some ⟨[l1, wr [0xF8, 0x00]], .driven .high, some 0, some 0⟩ := by decide

/-- T27 and T28, "for any value of the parameter": 4 bytes may succeed under `MAX_XFER = 4`, 5 may
not, whatever the transport answers. -/
theorem test_sendd_bound :
    viewAfter (.sendd [1, 2, 3, 4]) (withMaxXfer 4 (allOk s240)) =
      some ⟨[l1, wr [1, 2, 3, 4]], .driven .high, some 0, some 0⟩ ∧
    viewAfter (.sendd [1, 2, 3, 4, 5]) (withMaxXfer 4 (allOk s240)) =
      some ⟨[l1, .write [1, 2, 3, 4, 5] 0 .fail], .driven .high, some 1, some 0x100⟩ := by decide

/-- T24. -/
theorem test_cmd :
    viewAfter (.cmd 0x11) (allOk s240) =
      some ⟨[l0, wr [0x11]], .driven .low, some 0, some 0⟩ := by decide

/-- T25. -/
theorem test_dat :
    viewAfter (.dat 0x55) (allOk s240) =
      some ⟨[l1, wr [0x55]], .driven .high, some 0, some 0⟩ := by decide

/-- T30. -/
theorem test_dat_write_fails :
    viewAfter (.dat 0x01) (failingAt 1 0 s240) =
      some ⟨[l1, .write [0x01] 0 .fail], .driven .high, some 1, some 0x100⟩ := by decide

/-! ### The window emitter (2.3) -/

/-- T43. -/
theorem test_win :
    viewAfter .win (allOk { s240x135 with rot := 1 }) =
      some ⟨[l0, wr [0x2A], l1, wr [0, 0, 0, 0x86], l0, wr [0x2B], l1, wr [0, 0, 0, 0xEF],
        l0, wr [0x2C]], .driven .low, some 0, some 0⟩ := by decide

/-- T50. -/
theorem test_win_write_fails :
    viewAfter .win (failingAt 7 2 s240) =
      some ⟨[l0, wr [0x2A], l1, wr [0, 0, 0, 0xEF], l0, wr [0x2B], l1,
        .write [0, 0, 0, 0xEF] 2 .fail], .driven .high, some 1, some 0x103⟩ := by decide

/-- P1's pixel at the origin, the first pixel of the second row of a 240 by 135 window, and the wrap of
D29 after its last pixel. -/
theorem test_pixel_positions :
    placeFrom (240, 240) 0 (pixelsOf [0x11, 0xAA]) = [((0, 0), 0x11AA)] ∧
    pixelPosition (240, 135) 240 = (0, 1) ∧ pixelPosition (240, 135) 32400 = (0, 0) := by decide

/-! ### Rotation and size (2.4) -/

/-- T61 with `CFG_BGR = 1`. -/
theorem test_rot :
    viewAfter (.rot 1) (allOk { s240 with cfgBgr := true }) =
      some ⟨[l0, wr [0x36], l1, wr [0xA8], l0, wr [0x37], l1, wr [0x00, 0x50]],
        .driven .high, some 0, some 0⟩ := by decide

/-- "ROT failure": step 1's write fails, and `ROT` holds the new rotation. -/
theorem test_rot_write_fails :
    viewAfter (.rot 1) (failingAt 3 0 s240) =
      some ⟨[l0, wr [0x36], l1, .write [0xA0] 0 .fail], .driven .high, some 1, some 0x101⟩ ∧
    (nextState (exec (.rot 1) (failingAt 3 0 s240))).map (·.rot) = some 1 := by decide

/-- Scroll values by width, and `SCROLL_NZ = {1, 3}`. -/
theorem test_scroll : scroll .rot0 240 1 = 80 ∧ scroll .rot0 135 0 = 185 ∧ scroll .rot0 320 1 = 0 ∧
    scroll .rot0 1 1 = 319 ∧ scroll .rot3 240 0 = 0 ∧ scroll .rot3 240 3 = 80 := by decide

/-- T67 to T70. -/
theorem test_offsets : offsets 80 0 0 = (80, 0) ∧ offsets 80 0 1 = (0, 80) ∧
    offsets 80 0 2 = (0, 0) ∧ offsets 80 0 3 = (0, 0) := by decide

/-- V10. -/
theorem test_size :
    response .size s240x135 = some (some 0, some 0x00F00087) ∧
    response .size { s240x135 with rot := 1 } = some (some 0, some 0x008700F0) := by decide

/-- T88. -/
theorem test_size_320 :
    response .size (resetWith { Config.resetInputs with w := 320, h := 320 }) =
      some (some 0, some 0x01400140) := by decide

/-! ### Decode errors and reset at the port (2.5) -/

/-- T84. -/
theorem test_step_illegal :
    viewAfterStep (atPort (.request ⟨0x0000FF06, 1, []⟩) s240) =
      some ⟨[], .unknown, some 3, some 0⟩ ∧
    (nextState (step (atPort (.request ⟨0x0000FF06, 1, []⟩) s240))).map (·.rot) = some 0 := by decide

/-- T85, T86, T87. -/
theorem test_step_dead :
    viewAfterStep (atPort (.request ⟨0x00000008, 0, []⟩) sNoLine) =
      some ⟨[], .unknown, some 2, some 0⟩ ∧
    viewAfterStep (atPort (.request ⟨0x00000005, 0xFF000000, []⟩) sNoWidth) =
      some ⟨[], .unknown, some 2, some 0⟩ ∧
    viewAfterStep (atPort (.request ⟨0x00000009, 0, []⟩) sTooHigh) =
      some ⟨[], .unknown, some 2, some 0⟩ := by decide

/-- "Reset itself": `CFG_ROT_INIT = 5` gives `ROT = 1`, no event, and the swapped size. -/
theorem test_reset :
    (nextState (step (atPort (.reset { Config.resetInputs with h := 135, rotInit := 5 }) s240))).map
      (fun t => (t.rot, t.trace, t.live, currentSize t)) = some (1, [], true, (135, 240)) := by decide

/-- A reset after the second transaction of a WIN keeps two events and writes no response
(70_reset_and_hazards.md R190). -/
theorem test_reset_interrupts :
    (nextState (step (atPort (.interrupted ⟨0x00000008, 0, []⟩ 2 Config.resetInputs)
      (allOk s240)))).map (fun t => (t.trace, t.dc, t.rspStatus, t.answers.length)) =
      some ([l0, wr [0x2A]], .unknown, none, 10) := by decide

/-! ### Assembly (30_encoding.md R81, R82; P1, P3, P5) -/

theorem test_assemble_text :
    assembleText (params 4096) ['c', 'v', 't', ' ', '0', 'x', '1', '2', ',', ' ', '5', '2', ',', '8', '6',
      ';', 'n'] = some [.cvt 0x12 52 86 0] ∧
    assembleText (params 4096) ['c', 'm', 'd', 'd', ' ', 'C', 'M', 'D', '_', 'R', 'A', 'M', 'W', 'R', ',',
      ' ', '5'] = some [.cmd 0x2C, .sendd [5]] ∧
    assembleText (params 4096) ['p', 'x', ' ', '0', 'x', '1', '1', 'A', 'A'] =
      some [.sendd [0x11, 0xAA]] ∧
    assembleText (params 4096) ['d', 'a', 't', ' ', '2', '5', '6'] = none := by decide

theorem test_assemble_program :
    assembleProgram (params 4096) [['s', 'e', 'n', 'd', 'd'], ['r', 'o', 't', ' ', '5'], ['w', 'i', 'n']] =
      some [⟨0x00000002, 0, []⟩, ⟨0x00000006, 5, []⟩, ⟨0x00000008, 0, []⟩] := by decide

/-! ### Witnesses: for each statement, a state and operands that meet its hypotheses together -/

theorem witness_DecodeOfEncode : ∀ i ∈ [Instr.sendc [], .sendc [0x29], .sendd [0xF8, 0x00], .cmd 0xFF,
    .dat 0, .cvt 1 2 3 4, .rot 0xFFFFFFFF, .size, .win], i.wellFormed = true := by decide

theorem witness_EncodeOfDecode :
    Descriptor.wellFormed ⟨0x00020002, 0, [0xF8, 0x00]⟩ = true ∧
    decode ⟨0x00020002, 0, [0xF8, 0x00]⟩ = .ok (.sendd [0xF8, 0x00]) := ⟨rfl, rfl⟩

theorem witness_DescriptorLengthFromControlWord :
    Descriptor.wellFormed ⟨0x00020002, 0, [0xF8, 0x00]⟩ = true ∧
    Descriptor.wellFormed ⟨0x00020001, 7, [1, 2]⟩ = true ∧
    (0x00020002 : Word).extractLsb' 16 16 = (0x00020001 : Word).extractLsb' 16 16 := by decide

/-- One descriptor for each arm of the checks, at the boundary of its range. -/
def armDescriptors : List Descriptor :=
  [⟨0x00000108, 0, []⟩, ⟨0x00000000, 0, []⟩, ⟨0x00000009, 0, []⟩, ⟨0x00010003, 0, [0]⟩,
   ⟨0x00010008, 0, [0]⟩, ⟨0x00000001, 1, []⟩, ⟨0x00000002, 1, []⟩, ⟨0x00000007, 1, []⟩,
   ⟨0x00000008, 1, []⟩, ⟨0x00000003, 0x100, []⟩, ⟨0x00000004, 0x100, []⟩, ⟨0x00000001, 0, []⟩,
   ⟨0x00000002, 0, []⟩, ⟨0x00000003, 0xFF, []⟩, ⟨0x00000004, 0xFF, []⟩, ⟨0x00000005, 0, []⟩,
   ⟨0x00000006, 0xFFFFFFFF, []⟩, ⟨0x00000007, 0, []⟩, ⟨0x00000008, 0, []⟩]

theorem witness_RequestRunsChecksInOrder : ∀ d ∈ armDescriptors, ∀ s ∈ [s240, sNoLine],
    (atPort (.request d) s).port = [.request d] ∧ (atPort (.request d) s).phase = .idle ∧
    d.payload.length = (d.cw.extractLsb' 16 16).toNat := by decide

theorem witness_StepRunsDecodedRequest : ∀ i ∈ [Instr.sendc [0x29], .sendd [], .cmd 0, .dat 0xFF,
    .cvt 1 2 3 4, .rot 5, .size, .win],
    (atPort (.request (encode i)) s240).port = [.request (encode i)] ∧
    (atPort (.request (encode i)) s240).phase = .idle ∧ (encode i).wellFormed = true ∧
    decoded (encode i) = some i := by decide

theorem witness_IllegalDescriptorWritesResponseOnly :
    (atPort (.request ⟨0x00000009, 0, []⟩) s240).phase = .idle ∧
    (atPort (.request ⟨0x00000009, 0, []⟩) s240).live = true ∧
    Descriptor.wellFormed ⟨0x00000009, 0, []⟩ = true ∧
    decode ⟨0x00000009, 0, []⟩ = .error .illegalOperation := ⟨rfl, rfl, rfl, rfl⟩

theorem witness_DeadBlockAnswersConfigurationError :
    ∀ d ∈ [Descriptor.mk 0x00000005 0xFF000000 [], ⟨0x00000009, 0, []⟩],
      (atPort (.request d) sNoWidth).port = [.request d] ∧ (atPort (.request d) sNoWidth).phase = .idle ∧
      (atPort (.request d) sNoWidth).live = false ∧ d.wellFormed = true := by decide

theorem witness_IllFormedDescriptorRefused :
    (atPort (.request ⟨0x00000001, 0, [0x29]⟩) s240).phase = .idle ∧
    ([0x29] : List Byte).length ≠ ((0x00000001 : Word).extractLsb' 16 16).toNat := by decide

theorem witness_BusyPortAcceptsNoRequest :
    (atPort (.request ⟨0x00000008, 0, []⟩) { s240 with phase := .busy }).port =
      [.request ⟨0x00000008, 0, []⟩] ∧
    (atPort (.request ⟨0x00000008, 0, []⟩) { s240 with phase := .busy }).phase = .busy := by decide

theorem witness_IdlePortLeavesState : s240.port = [] := by decide

theorem witness_RequestKeepsConfiguration : ∃ t, exec (.rot 3) (allOk s240x135) = .next t := ⟨_, rfl⟩

theorem witness_OnlyRotWritesRotation :
    (∀ r, Instr.win ≠ .rot r) ∧ ∃ t, exec .win (allOk s240x135) = .next t :=
  ⟨fun _ => by simp, _, rfl⟩

/-- A request that fails, and one whose write is over `MAX_XFER`. -/
theorem witness_OneEventPerTransportAnswer : (∃ t, exec .win (failingAt 7 2 s240) = .next t) ∧
    ∃ t, exec (.sendd [1, 2, 3, 4, 5]) (withMaxXfer 4 (allOk s240)) = .next t := ⟨⟨_, rfl⟩, _, rfl⟩

theorem witness_BusWriteOutcomes :
    [1, 2, 3, 4].length ≤ (withMaxXfer 4 (allOk s240)).par.maxXfer ∧
    (answerAt (withMaxXfer 4 (allOk s240)) 0).reply = .ok ∧
    (answerAt (withMaxXfer 4 (failingAt 0 4 s240)) 0).reply = .fail := by decide

theorem witness_OverlongWriteFails :
    (withMaxXfer 4 (allOk s240)).par.maxXfer < [1, 2, 3, 4, 5].length ∧
    [1, 2, 3, 4].length ≤ (withMaxXfer 4 (allOk s240)).par.maxXfer := by decide

theorem witness_LineSetOutcomes : (answerAt (allOk s240) 0).reply = .ok ∧
    (answerAt (failingAt 0 0 s240) 0).reply = .fail := by decide

/-- One byte, and exactly `MAX_XFER` bytes. -/
theorem witness_FramerPayloadDelivered : ∀ p ∈ [[(0x29 : Byte)], [1, 2, 3, 4]],
    (withMaxXfer 4 (allOk s240)).live = true ∧ transportOk 2 (withMaxXfer 4 (allOk s240)) ∧
    p ≠ [] ∧ p.length ≤ (withMaxXfer 4 (allOk s240)).par.maxXfer := by decide

theorem witness_FramerEmptyPayloadSetsLineOnly :
    (allOk s240).live = true ∧ (answerAt (allOk s240) 0).reply = .ok := by decide

theorem witness_FramerByteDelivered :
    (withMaxXfer 1 (allOk s240)).live = true ∧ transportOk 2 (withMaxXfer 1 (allOk s240)) ∧
    1 ≤ (withMaxXfer 1 (allOk s240)).par.maxXfer := by decide

/-- The first and the last frame step of WIN. -/
theorem witness_FailedLineSetEndsRequest : ∀ j ∈ [0, 4],
    (failingAt (2 * j) 0 s240).live = true ∧
    ((frameStepsOf (failingAt (2 * j) 0 s240) .win)[j]?).isSome = true ∧
    (∀ f ∈ (frameStepsOf (failingAt (2 * j) 0 s240) .win).take j,
      f.2 ≠ [] ∧ f.2.length ≤ (failingAt (2 * j) 0 s240).par.maxXfer) ∧
    transportOk (2 * j) (failingAt (2 * j) 0 s240) ∧
    (answerAt (failingAt (2 * j) 0 s240) (2 * j)).reply = .fail := by decide

/-- The first and the last frame step of WIN, each with a failing answer. -/
theorem witness_FailedWriteEndsRequest : ∀ j ∈ [0, 4],
    (failingAt (2 * j + 1) 0 s240).live = true ∧
    ((frameStepsOf (failingAt (2 * j + 1) 0 s240) .win)[j]?).any (fun f => !f.2.isEmpty) = true ∧
    (∀ f ∈ (frameStepsOf (failingAt (2 * j + 1) 0 s240) .win).take j,
      f.2 ≠ [] ∧ f.2.length ≤ (failingAt (2 * j + 1) 0 s240).par.maxXfer) ∧
    transportOk (2 * j + 1) (failingAt (2 * j + 1) 0 s240) ∧
    (answerAt (failingAt (2 * j + 1) 0 s240) (2 * j + 1)).reply = .fail := by decide

/-- The same statement's other premise: a payload one byte over `MAX_XFER`. -/
theorem witness_FailedWriteEndsRequest_overlong :
    (withMaxXfer 4 (allOk s240)).live = true ∧
    (frameStepsOf (withMaxXfer 4 (allOk s240)) (.sendd [1, 2, 3, 4, 5]))[0]? =
      some (.high, [1, 2, 3, 4, 5]) ∧
    transportOk 1 (withMaxXfer 4 (allOk s240)) ∧
    (withMaxXfer 4 (allOk s240)).par.maxXfer < [1, 2, 3, 4, 5].length := by decide

theorem witness_OverlongPayloadNeverSucceeds : (withMaxXfer 4 (allOk s240)).live = true ∧
    (withMaxXfer 4 (allOk s240)).par.maxXfer < [1, 2, 3, 4, 5].length := by decide

theorem witness_PayloadReachesPanelUnderItsLevel : (allOk s240).live = true ∧
    (∃ t, exec (.sendc [0x29]) (allOk s240) = .next t ∧ t.rspStatus = some 0) ∧
    (∃ t, exec (.sendd [1, 2]) (allOk s240) = .next t ∧ t.rspStatus = some 0) :=
  ⟨rfl, ⟨_, rfl, rfl⟩, ⟨_, rfl, rfl⟩⟩

theorem witness_CvtPacksExpandedChannels : s240.live = true := by decide

/-- `MAX_XFER = 2`, the least that ROT needs. -/
theorem witness_RotEmitsAddressingModeThenScroll : (withMaxXfer 2 (allOk s240)).live = true ∧
    2 ≤ (withMaxXfer 2 (allOk s240)).par.maxXfer ∧ transportOk 8 (withMaxXfer 2 (allOk s240)) := by
  decide

theorem witness_RotWritesRotationEvenOnFailure : (failingAt 0 0 s240).live = true := by decide

/-- The least operand and the greatest that R157 covers. -/
theorem witness_RotIsModuloFour : (0 : Word).toNat + 4 < 2 ^ 32 ∧
    (0xFFFFFFFB : Word).toNat + 4 < 2 ^ 32 := by decide

theorem witness_ScrollOffsetOfRotation :
    ((1 : Rotation) = 1 ∨ (1 : Rotation) = scrollPartnerRotation .rot3) ∧
    ((3 : Rotation) = 1 ∨ (3 : Rotation) = scrollPartnerRotation .rot3) ∧
    ¬ ((0 : Rotation) = 1 ∨ (0 : Rotation) = scrollPartnerRotation .rot3) ∧
    1 ≤ (1 : Half).toNat ∧ (1 : Half).toNat ≤ 320 ∧
    1 ≤ (320 : Half).toNat ∧ (320 : Half).toNat ≤ 320 := by decide

theorem witness_MadctlBytesDifferOutsideBgr :
    (∃ k, k < 8 ∧ Config.referenceMadctl.rot0.getLsbD k ≠ Config.referenceMadctl.rot1.getLsbD k ∧
      Config.referenceMadctl.bgr.getLsbD k = false) ∧
    MadctlBytes.distinct ⟨0x08, 0x00, 0, 0, 0x08⟩ = false := ⟨⟨5, by decide⟩, by decide⟩

theorem witness_SizeReportsRotationAwareSize : ∀ q ∈ [(0 : Rotation), 1, 2, 3],
    State.live { s240x135 with rot := q } = true := by decide

/-- `MAX_XFER = 4`, the least that WIN needs. -/
theorem witness_WinEmitsFullWindow : (withMaxXfer 4 (allOk s240x135)).live = true ∧
    4 ≤ (withMaxXfer 4 (allOk s240x135)).par.maxXfer ∧
    transportOk 10 (withMaxXfer 4 (allOk s240x135)) := by decide

theorem witness_WinIgnoresOffsets : ∃ t, exec .win (allOk s240) = .next t := ⟨_, rfl⟩

/-- Both bounds of R35. -/
theorem witness_WinEndsFitPanel :
    ∀ s ∈ [resetWith { Config.resetInputs with w := 1, h := 320 },
      resetWith { Config.resetInputs with w := 320, h := 1, rotInit := 1 }],
      configOk s ∧ s.live = true := by decide

theorem witness_WinEqualsItsPseudoInstructions : (withMaxXfer 4 (allOk s240x135)).live = true ∧
    4 ≤ (withMaxXfer 4 (allOk s240x135)).par.maxXfer ∧
    transportOk 10 (withMaxXfer 4 (allOk s240x135)) := witness_WinEmitsFullWindow

/-- The last pixel of a 240 by 135 window. -/
theorem witness_PixelsFillWindowRowMajor :
    239 < (240 : Half).toNat ∧ 134 < (135 : Half).toNat := by decide

theorem witness_BoundedRequestSucceedsOnOkTransport :
    ∀ i ∈ [Instr.sendd [1, 2, 3, 4], .sendc [], .rot 1, .win],
      (withMaxXfer 4 (allOk s240)).live = true ∧ 4 ≤ (withMaxXfer 4 (allOk s240)).par.maxXfer ∧
      chunkBounded (withMaxXfer 4 (allOk s240)).par.maxXfer i = true ∧
      transportOk 10 (withMaxXfer 4 (allOk s240)) := by decide

theorem witness_DataStreamKeepsWindowExtent :
    (∀ i ∈ [Instr.sendd [0xF8, 0x00], .dat 0xF8], extendsMemoryWrite i = true) ∧
    ∃ t, execAll [.sendd [0xF8, 0x00], .dat 0xF8] (allOk s240) = .next t := ⟨by decide, _, rfl⟩

theorem witness_FreshDataUsesLastWindowExtent :
    extendsMemoryWrite (.sendd [0xF8, 0x00]) = true ∧
    windowFresh false ([.win, .rot 1, .win] ++ [.sendd [0xF8, 0x00]]) = true ∧
    ∃ t, execAll [.win, .rot 1, .win] (allOk s240x135) = .next t := ⟨rfl, rfl, _, rfl⟩

/-- Three pixels in two chunks of at most `MAX_XFER = 4` bytes, the final one shorter. -/
theorem witness_PixelStreamReachesPanelWhole :
    (withMaxXfer 4 (allOk s240)).live = true ∧
    pixelStream (withMaxXfer 4 (allOk s240)).par.maxXfer [0xF800, 0x07E0, 0x001F]
      [.sendd [0xF8, 0x00, 0x07, 0xE0], .sendd [0x00, 0x1F]] ∧
    transportOk (2 * 2) (withMaxXfer 4 (allOk s240)) := by
  refine ⟨by decide, ⟨?_, by decide⟩, by decide⟩
  intro i hi
  simp only [List.mem_cons, List.not_mem_nil, or_false] at hi
  obtain rfl | rfl := hi
  · exact ⟨_, rfl, by decide⟩
  · exact ⟨_, rfl, by decide⟩

/-- Each rotation, and configurations that pass and fail the checks at their bounds. -/
theorem witness_ResetTakesSpecValues :
    ∀ c ∈ [{ Config.resetInputs with rotInit := 4 }, { Config.resetInputs with rotInit := 5 },
      { Config.resetInputs with rotInit := 0xFFFFFFFF }, { Config.resetInputs with w := 0 },
      { Config.resetInputs with h := 320 }, { Config.resetInputs with h := 321 }],
      (atPort (.reset c) s240).port = [.reset c] := by decide

theorem witness_ResetAbandonsRequest : ∃ t es,
    (atPort (.interrupted (encode .win) 3 Config.resetInputs) (allOk s240)).phase = .idle ∧
    (encode .win).wellFormed = true ∧ decode (encode .win) = .ok .win ∧
    exec .win { atPort (.interrupted (encode .win) 3 Config.resetInputs) (allOk s240) with port := [] } =
      .next t ∧
    t.trace = (allOk s240).trace ++ es := ⟨_, _, rfl, rfl, rfl, rfl, rfl⟩

theorem witness_StepKeepsConfigurationInvariant :
    configOk (atPort (.request (encode (.rot 1))) (allOk s240x135)) ∧
    ∃ t, step (atPort (.request (encode (.rot 1))) (allOk s240x135)) = .next t :=
  ⟨by decide, _, rfl⟩

theorem witness_StepKeepsResponseForm :
    responseOk (atPort (.request (encode .win)) (failingAt 7 2 s240)) ∧
    ∃ t, step (atPort (.request (encode .win)) (failingAt 7 2 s240)) = .next t :=
  ⟨.inl ⟨rfl, rfl⟩, _, rfl⟩

theorem witness_StepKeepsLineBeforeWrite :
    traceOk (atPort (.request (encode .win)) (failingAt 7 2 s240)) ∧
    ∃ t, step (atPort (.request (encode .win)) (failingAt 7 2 s240)) = .next t :=
  ⟨by decide, _, rfl⟩

theorem witness_StepKeepsDcAtLastLineSet :
    dcOk (atPort (.request (encode .win)) (failingAt 4 0 s240)) ∧
    ∃ t, step (atPort (.request (encode .win)) (failingAt 4 0 s240)) = .next t :=
  ⟨.inl rfl, _, rfl⟩

theorem witness_StepKeepsPortIdleAndParameters :
    (atPort (.request (encode .size)) s240).phase = .idle ∧
    ∃ t, step (atPort (.request (encode .size)) s240) = .next t := ⟨rfl, _, rfl⟩

theorem witness_StepOnlyAppendsToTrace :
    ∃ t, step (atPort (.interrupted (encode .win) 2 Config.resetInputs) (allOk s240)) = .next t :=
  ⟨_, rfl⟩

theorem witness_ConfigurationChangesOnlyAtReset :
    (∃ t, step (atPort (.request (encode (.rot 2))) (allOk s240)) = .next t) ∧
    (∀ c rest, (atPort (.request (encode (.rot 2))) (allOk s240)).port ≠ .reset c :: rest) ∧
    (∀ d n c rest, (atPort (.request (encode (.rot 2))) (allOk s240)).port ≠
      .interrupted d n c :: rest) :=
  ⟨⟨_, rfl⟩, fun _ _ h => (nomatch h), fun _ _ _ _ h => (nomatch h)⟩

theorem witness_AssemblyGivesTheDescriptors :
    (zeros 65535).length ≤ 65535 := Nat.le_of_eq (zeros_length 65535)

end Sys2Proof.Tests
end

/-! The state across a request and a step (10_state.md): what a request leaves alone, what only a reset
writes, and the two invariants of R35 and R28. -/

namespace Sys2Proof.Proofs

open Sys2Proof.Machine Sys2Proof.Safety Sys2Proof.Laws

/-! ### One step, by what the host does next -/

theorem step_of_port_nil {s : State} (h : s.port = []) : step s = .next s := by
  simp [step, takeInput, h]

theorem step_of_port_request {s : State} {d : Descriptor} {rest : List PortInput}
    (h : s.port = .request d :: rest) : step s = takeRequest d { s with port := rest } := by
  simp [step, takeInput, h]

theorem step_of_port_reset {s : State} {c : CfgInputs} {rest : List PortInput}
    (h : s.port = .reset c :: rest) : step s = .next (applyReset c { s with port := rest }) := by
  simp [step, takeInput, h]

theorem takeRequest_busy {d : Descriptor} {s : State} (h : s.phase = .busy) :
    takeRequest d s = .refused .portBusy := by
  simp [takeRequest, h]

/-! ### What every request keeps -/

/-- `P` is kept by each operation that requests are made of. A write stands behind the line-set that
opened its frame step (R90). -/
structure KeptByOps (P : State → Prop) : Prop where
  of_accept : ∀ s, P s → P (accept s)
  of_setRotation : ∀ q s, P s → P (setRotation q s)
  of_lineSet : ∀ level s, P s → P (lineSet level s).1
  of_busWrite : ∀ level bs s, bs ≠ [] → (answerAt s 0).reply = .ok → P s →
    P (busWrite bs (lineSet level s).1).1
  of_respond : ∀ st r s, P s → P (respond st r s)

namespace KeptByOps

variable {P : State → Prop} (hP : KeptByOps P)
include hP

theorem of_beforeFrames {s : State} (i : Instr) (h : P s) : P (beforeFrames s i) := by
  cases i with
  | rot r => exact hP.of_setRotation _ s h
  | sendc _ | sendd _ | cmd _ | dat _ | cvt _ _ _ _ | size | win => exact h

theorem of_exec {i : Instr} {s t : State} (h : P s) (ht : exec i s = .next t) : P t := by
  have ha : P (accept s) := hP.of_accept s h
  obtain ⟨_, rfl⟩ | ⟨_, st, r, rfl, _⟩ := exec_cases ht
  · exact hP.of_respond _ _ _ ha
  · exact hP.of_respond _ _ _
      (frames_keep hP.of_lineSet hP.of_busWrite _ _ _ (hP.of_beforeFrames i ha))

theorem of_rejectIllegal {s t : State} (h : P s) (ht : rejectIllegal s = .next t) : P t := by
  obtain ⟨_, rfl⟩ | ⟨_, rfl⟩ := rejectIllegal_cases ht <;>
    exact hP.of_respond _ _ _ (hP.of_accept s h)

theorem of_takeRequest {d : Descriptor} {s t : State} (h : P s) (ht : takeRequest d s = .next t) :
    P t := by
  obtain ⟨_, _, ⟨_, _, hi⟩ | ⟨_, _, he⟩⟩ := takeRequest_cases ht
  · exact hP.of_exec h hi
  · exact hP.of_rejectIllegal h he

end KeptByOps

/-- What the host's next action does not touch, and taken requests, resets and abandoned requests keep,
every step keeps. -/
theorem step_keeps {P : State → Prop} (hport : ∀ rest s, P s → P { s with port := rest })
    (hrequest : ∀ d s t, takeRequest d s = .next t → P s → P t)
    (hreset : ∀ c s, P s → P (applyReset c s))
    (habandon : ∀ d n c s u, takeRequest d s = .next u → P s → P (abandonAfter n c s u))
    {s t : State} (h : P s) (ht : step s = .next t) : P t := by
  obtain ⟨_, rfl⟩ | ⟨c, rest, _, rfl⟩ | ⟨d, rest, _, hr⟩ | ⟨d, n, c, rest, u, _, hr, rfl⟩ :=
    step_cases ht
  · exact h
  · exact hreset c _ (hport rest s h)
  · exact hrequest d _ t hr (hport rest s h)
  · exact habandon d n c _ u hr (hport rest s h)

/-! ### What no request writes (R24, R25, R29) -/

/-- `t` agrees with `s` in all that a reset and the host alone may write: the configuration registers,
the color mode, `LIVE`, the parameters and the host's next actions. -/
def SameConfig (s t : State) : Prop :=
  t.cfgW = s.cfgW ∧ t.cfgH = s.cfgH ∧ t.cfgBgr = s.cfgBgr ∧ t.cfgRowOff = s.cfgRowOff ∧
  t.cfgColOff = s.cfgColOff ∧ t.cfgDcPresent = s.cfgDcPresent ∧ t.colorMode = s.colorMode ∧
  t.live = s.live ∧ t.par = s.par ∧ t.port = s.port

theorem SameConfig.refl (s : State) : SameConfig s s :=
  ⟨rfl, rfl, rfl, rfl, rfl, rfl, rfl, rfl, rfl, rfl⟩

/-- Each operation of a request leaves every field of `SameConfig` as it was, by the field lemmas of
`Laws`, which hold by unfolding. -/
theorem sameConfig_keptByOps (s : State) : KeptByOps (SameConfig s) where
  of_accept _ h := h
  of_setRotation _ _ h := h
  of_lineSet _ _ h := h
  of_busWrite _ _ _ _ _ h := h
  of_respond _ _ _ h := h

/-- Settles O14: no operation of a request writes a field of `SameConfig`. -/
theorem requestKeepsConfiguration : Obligations.RequestKeepsConfiguration :=
  fun _ s _ ht => (sameConfig_keptByOps s).of_exec (SameConfig.refl s) ht

/-- Settles O58: the step does nothing or takes a request, which keeps the configuration. -/
theorem configurationChangesOnlyAtReset : Obligations.ConfigurationChangesOnlyAtReset := by
  unfold Obligations.ConfigurationChangesOnlyAtReset
  intro s t ht hnoReset hnoInterrupted
  obtain ⟨_, rfl⟩ | ⟨c, rest, hp, _⟩ | ⟨d, rest, _, hr⟩ | ⟨d, n, c, rest, _, hp, _⟩ := step_cases ht
  · exact ⟨rfl, rfl, rfl, rfl, rfl, rfl, rfl⟩
  · exact absurd hp (hnoReset c rest)
  · obtain ⟨hw, hh, hbgr, hrow, hcol, hdc, _, hlive, _⟩ :=
      (sameConfig_keptByOps _).of_takeRequest (SameConfig.refl _) hr
    exact ⟨hlive, hw, hh, hbgr, hrow, hcol, hdc⟩
  · exact absurd hp (hnoInterrupted d n c rest)

/-! ### What only ROT writes (R26, R27) -/

theorem beforeFrames_of_ne_rot {i : Instr} (hi : ∀ r, i ≠ .rot r) (s : State) :
    beforeFrames s i = s := by
  cases i with
  | rot r => exact absurd rfl (hi r)
  | sendc _ | sendd _ | cmd _ | dat _ | cvt _ _ _ _ | size | win => rfl

/-- The frame steps of a request write no rotation state. -/
theorem frames_rotation (fs : List FrameStep) (step : Nat) (s : State) :
    (frames fs step s).1.rot = s.rot ∧ (frames fs step s).1.rowOff = s.rowOff ∧
      (frames fs step s).1.colOff = s.colOff := by
  obtain ⟨es, dc, _, e⟩ := frames_emits fs step s
  rw [e]
  exact ⟨rfl, rfl, rfl⟩

/-- Settles O15: ROT alone writes the rotation state before its frame steps, and frame steps do not. -/
theorem onlyRotWritesRotation : Obligations.OnlyRotWritesRotation := by
  unfold Obligations.OnlyRotWritesRotation
  intro i s t hi ht
  obtain ⟨_, rfl⟩ | ⟨_, st, r, rfl, _⟩ := exec_cases ht
  · exact ⟨rfl, rfl, rfl⟩
  · rw [beforeFrames_of_ne_rot hi]
    exact frames_rotation _ 0 (accept s)

/-! ### Reset (R36, R191) -/

/-- The checks of R191 as one condition. -/
theorem resetChecksPass_eq_decide (dcPresent : Bool) (w h : Half) :
    resetChecksPass dcPresent w h = decide (dcPresent = true ∧ 1 ≤ w.toNat ∧
      w.toNat ≤ Config.ramRows ∧ 1 ≤ h.toNat ∧ h.toNat ≤ Config.ramRows) := by
  rw [Bool.eq_iff_iff]
  simp [resetChecksPass, dimensionOk, and_assoc]

/-- Settles O48: a reset at the port is `applyReset`, its checks and offsets written out. -/
theorem resetTakesSpecValues : Obligations.ResetTakesSpecValues := by
  unfold Obligations.ResetTakesSpecValues
  intro s c rest hp
  rw [step_of_port_reset hp, applyReset, resetChecksPass_eq_decide, offsets_eq]
  rfl

/-- The addressing-mode bytes meet the constraint of R152, whichever were drawn. -/
theorem config_madctl_distinct : Config.madctl.distinct = true := by
  unfold Config.madctl
  split
  case isTrue h => exact h
  case isFalse => decide

/-- Settles O50: `State.reset` holds the reset values of its own inputs, field by field. -/
theorem stateResetIsAReset : Obligations.StateResetIsAReset := by
  unfold Obligations.StateResetIsAReset
  exact ⟨rfl, config_madctl_distinct, rfl, rfl, by decide⟩

/-! ### The invariant of a live block (R35) -/

/-- A reset sets `LIVE` by the bounds that the invariant asks for, and the offsets of its rotation. -/
theorem configOk_applyReset (c : CfgInputs) (s : State) : configOk (applyReset c s) := by
  intro hlive
  rw [applyReset_live, resetChecksPass_eq_decide, decide_eq_true_eq] at hlive
  obtain ⟨hdc, hw, hw', hh, hh'⟩ := hlive
  exact ⟨hw, hw', hh, hh', hdc, rfl⟩

/-- An abandoned request leaves the reset state but for the trace (R190), which the invariant does not
read. -/
theorem configOk_abandonAfter (n : Nat) (c : CfgInputs) (before after : State) :
    configOk (abandonAfter n c before after) :=
  configOk_applyReset c before

/-- ROT writes the offsets of the rotation it sets, so the invariant's last clause holds of them. -/
theorem configOk_setRotation (q : Rotation) {s : State} (h : configOk s) :
    configOk (setRotation q s) := by
  intro hlive
  obtain ⟨hw, hw', hh, hh', hdc, _⟩ := h hlive
  exact ⟨hw, hw', hh, hh', hdc, rfl⟩

theorem configOk_keptByOps : KeptByOps configOk where
  of_accept _ h := h
  of_setRotation q _ h := configOk_setRotation q h
  of_lineSet _ _ h := h
  of_busWrite _ _ _ _ _ h := h
  of_respond _ _ _ h := h

/-- Settles O52: requests write the offsets with the rotation, and a reset, alone or abandoning a
request, establishes the invariant. -/
theorem stepKeepsConfigurationInvariant : Obligations.StepKeepsConfigurationInvariant := by
  unfold Obligations.StepKeepsConfigurationInvariant
  intro s t h ht
  exact step_keeps (P := configOk) (fun _ _ h => h)
    (fun _ _ _ hr h => configOk_keptByOps.of_takeRequest h hr)
    (fun c s _ => configOk_applyReset c s)
    (fun _ n c s u _ _ => configOk_abandonAfter n c s u) h ht

/-! ### DC and the last line-set (R28, R177) -/

theorem lineFrom_append (dc : Dc) (es fs : List Event) :
    lineFrom dc (es ++ fs) = lineFrom (lineFrom dc es) fs := by
  induction es generalizing dc with
  | nil => rfl
  | cons e es ih =>
    match e with
    | .line level .ok => exact ih (.driven level)
    | .line level .fail => exact ih .unknown
    | .write _ _ _ => exact ih dc

/-- A line-set puts `DC` where its event puts the line (R57), whatever was before. -/
theorem dcOk_lineSet (level : Level) (s : State) : dcOk (lineSet level s).1 := by
  right
  rw [lineSet_dc, lineSet_trace, lineFrom_append]
  cases (answerAt s 0).reply <;> rfl

/-- A write moves neither `DC` nor the line. -/
theorem dcOk_busWrite (bs : List Byte) {s : State} (h : dcOk s) : dcOk (busWrite bs s).1 := by
  unfold dcOk
  rw [busWrite_dc, busWrite_trace, lineFrom_append]
  exact h

theorem dcOk_keptByOps : KeptByOps dcOk where
  of_accept _ h := h
  of_setRotation _ _ h := h
  of_lineSet level s _ := dcOk_lineSet level s
  of_busWrite level bs s _ _ _ := dcOk_busWrite bs (dcOk_lineSet level s)
  of_respond _ _ _ h := h

/-- Settles O55: a line-set moves `DC` with the line, a write moves neither, and a reset, alone or
abandoning a request, leaves `DC` unknown. -/
theorem stepKeepsDcAtLastLineSet : Obligations.StepKeepsDcAtLastLineSet := by
  unfold Obligations.StepKeepsDcAtLastLineSet
  intro s t h ht
  exact step_keeps (P := dcOk) (fun _ _ h => h)
    (fun _ _ _ hr h => dcOk_keptByOps.of_takeRequest h hr)
    (fun _ _ _ => .inl rfl) (fun _ _ _ _ _ _ _ => .inl rfl) h ht

/-! ### The port (R21, R30) and the state after reset -/

/-- A request's last act is its response, which returns the port to idle (R30). -/
theorem takeRequest_phase {d : Descriptor} {s t : State} (h : takeRequest d s = .next t) :
    t.phase = .idle := by
  obtain ⟨_, _, ⟨_, _, hi⟩ | ⟨_, _, he⟩⟩ := takeRequest_cases h
  · obtain ⟨_, rfl⟩ | ⟨_, _, _, rfl, _⟩ := exec_cases hi <;> exact respond_phase _ _ _
  · obtain ⟨_, rfl⟩ | ⟨_, rfl⟩ := rejectIllegal_cases he <;> exact respond_phase _ _ _

theorem takeRequest_par {d : Descriptor} {s t : State} (h : takeRequest d s = .next t) :
    t.par = s.par := by
  obtain ⟨_, _, hpar⟩ := takeRequest_trace h
  exact hpar

/-- Settles O56: a request and a reset both end with the port idle, and neither writes a parameter. -/
theorem stepKeepsPortIdleAndParameters : Obligations.StepKeepsPortIdleAndParameters := by
  unfold Obligations.StepKeepsPortIdleAndParameters
  intro s t hidle ht
  exact step_keeps (P := fun u => u.phase = .idle ∧ u.par = s.par) (fun _ _ h => h)
    (fun _ _ _ hr ⟨_, hpar⟩ => ⟨takeRequest_phase hr, (takeRequest_par hr).trans hpar⟩)
    (fun _ _ ⟨_, hpar⟩ => ⟨rfl, hpar⟩) (fun _ _ _ _ _ _ ⟨_, hpar⟩ => ⟨rfl, hpar⟩) ⟨hidle, rfl⟩ ht

/-- Settles O11: the port looks at its phase before the descriptor's form. -/
theorem busyPortAcceptsNoRequest : Obligations.BusyPortAcceptsNoRequest := by
  unfold Obligations.BusyPortAcceptsNoRequest
  intro s d rest hp hbusy
  rw [step_of_port_request hp]
  exact takeRequest_busy hbusy

/-- Settles O12: the step takes the head of the port list, and there is none. -/
theorem idlePortLeavesState : Obligations.IdlePortLeavesState :=
  fun _ hp => step_of_port_nil hp

/-- Settles O51: the configuration clause holds because `State.reset` is what a reset gives. -/
theorem stateResetMeetsInvariants : Obligations.StateResetMeetsInvariants := by
  unfold Obligations.StateResetMeetsInvariants
  obtain ⟨hreset, _⟩ := stateResetIsAReset
  have hconfig : configOk State.reset := hreset ▸ configOk_applyReset Config.resetInputs State.reset
  exact ⟨hconfig, .inl ⟨rfl, rfl⟩, ⟨rfl, rfl⟩, .inl rfl, rfl, rfl⟩

end Sys2Proof.Proofs

/-! The bus (20_memory.md): the outcomes of a write and of a line-set, one event per answer of the
transport, what reaches the panel, and the two facts about the trace that every step keeps. -/

namespace Sys2Proof.Proofs

open Sys2Proof.Machine Sys2Proof.Safety Sys2Proof.Laws

/-! ### The trace of an abandoned request (R190) -/

theorem abandonAfter_trace (n : Nat) (c : CfgInputs) (before after : State) :
    (abandonAfter n c before after).trace = before.trace ++ (newEvents before after).take n := rfl

/-- An abandoned request leaves a beginning of the trace that it would have left. -/
theorem abandonAfter_trace_prefix {d : Descriptor} {s u : State} (n : Nat) (c : CfgInputs)
    (h : takeRequest d s = .next u) : (abandonAfter n c s u).trace <+: u.trace := by
  obtain ⟨es, htrace, _⟩ := takeRequest_trace h
  rw [abandonAfter_trace, newEvents, htrace, List.drop_left, List.prefix_append_right_inj]
  exact List.take_prefix n es

/-- Settles O57: a request appends to the trace, and a reset leaves it, alone or behind the part of a
request that was made. -/
theorem stepOnlyAppendsToTrace : Obligations.StepOnlyAppendsToTrace := by
  unfold Obligations.StepOnlyAppendsToTrace
  intro s t ht
  refine step_keeps (P := fun u => s.trace <+: u.trace) (fun _ _ h => h) ?_ (fun _ _ h => h)
    (fun _ _ _ _ _ _ h => h.trans (List.prefix_append _ _)) (List.prefix_refl _) ht
  intro d u v hr h
  obtain ⟨es, htrace, _⟩ := takeRequest_trace hr
  rw [htrace]
  exact h.trans (List.prefix_append _ _)

/-! ### Each write right after a successful line-set (R64, R200) -/

/-- A line-set may follow anything, so events that begin with one are judged on their own. -/
theorem writesFollowLines_append_line (b : Bool) (es fs : List Event) (level : Level) (o : Reply) :
    writesFollowLines b (es ++ .line level o :: fs) =
      (writesFollowLines b es && writesFollowLines false (.line level o :: fs)) := by
  induction es generalizing b with
  | nil => cases o <;> rfl
  | cons e es ih =>
    match e with
    | .line _ .ok => exact ih true
    | .line _ .fail => exact ih false
    | .write _ _ _ => simp only [List.cons_append, writesFollowLines, ih, Bool.and_assoc]

/-- A beginning of events whose writes follow line-sets is such a list too. -/
theorem writesFollowLines_of_append {b : Bool} {es fs : List Event}
    (h : writesFollowLines b (es ++ fs) = true) : writesFollowLines b es = true := by
  induction es generalizing b with
  | nil => rfl
  | cons e es ih =>
    match e with
    | .line _ .ok => exact ih (b := true) h
    | .line _ .fail => exact ih (b := false) h
    | .write _ _ _ =>
      simp only [List.cons_append, writesFollowLines, Bool.and_eq_true] at h ⊢
      exact ⟨h.1, ih h.2⟩

/-- The event of a write of at least one byte is one that R55 and R56 allow, whatever the answer. -/
theorem writeEventOk_of_answer (maxXfer : Nat) {bs : List Byte} (hbs : bs ≠ []) (a : Answer) :
    writeEventOk maxXfer (.write bs (writeDelivered bs a (writeReply maxXfer bs a))
      (writeReply maxXfer bs a)) = true := by
  by_cases hlong : maxXfer < bs.length
  · simp [writeReply_long hlong, writeDelivered, writeEventOk, hbs]
  · have hfits : bs.length ≤ maxXfer := Nat.le_of_not_lt hlong
    rw [writeReply_fits hfits]
    cases a.reply with
    | ok => simp [writeDelivered, writeEventOk, hbs, hfits]
    | fail => simp [writeDelivered, writeEventOk, hbs]

theorem traceOk_lineSet (level : Level) {s : State} (h : traceOk s) :
    traceOk (lineSet level s).1 := by
  obtain ⟨hfollow, hevents⟩ := h
  constructor
  · rw [lineSet_trace, writesFollowLines_append_line, hfollow]
    cases (answerAt s 0).reply <;> rfl
  · rw [lineSet_trace, lineSet_par, List.all_append, hevents]
    rfl

/-- A write keeps the trace in form behind the line-set that opened its frame step and succeeded. -/
theorem traceOk_busWrite (level : Level) {bs : List Byte} {s : State} (hbs : bs ≠ [])
    (hline : (answerAt s 0).reply = .ok) (h : traceOk s) :
    traceOk (busWrite bs (lineSet level s).1).1 := by
  obtain ⟨hfollow, hevents⟩ := h
  constructor
  · rw [busWrite_trace, lineSet_trace, List.append_assoc, List.singleton_append,
      writesFollowLines_append_line, hfollow, hline]
    rfl
  · rw [busWrite_trace, busWrite_par, lineSet_trace, lineSet_par, List.all_append, List.all_append,
      hevents]
    simp only [List.all_cons, List.all_nil, writeEventOk_of_answer _ hbs]
    rfl

theorem traceOk_keptByOps : KeptByOps traceOk where
  of_accept _ h := h
  of_setRotation _ _ h := h
  of_lineSet level _ h := traceOk_lineSet level h
  of_busWrite level _ _ hbs hline h := traceOk_busWrite level hbs hline h
  of_respond _ _ _ h := h

/-- A trace in form has all its beginnings in form. -/
theorem traceOk_of_prefix {s t : State} (hpar : s.par = t.par) (hpre : s.trace <+: t.trace)
    (h : traceOk t) : traceOk s := by
  obtain ⟨hfollow, hevents⟩ := h
  obtain ⟨es, htrace⟩ := hpre
  rw [← htrace] at hfollow hevents
  rw [List.all_append, Bool.and_eq_true] at hevents
  exact ⟨writesFollowLines_of_append hfollow, hpar ▸ hevents.1⟩

/-- Settles O54: both transactions of a frame step keep the trace in form, and a request that a reset
abandons leaves a beginning of the trace the whole request would have left. -/
theorem stepKeepsLineBeforeWrite : Obligations.StepKeepsLineBeforeWrite := by
  unfold Obligations.StepKeepsLineBeforeWrite
  intro s t h ht
  refine step_keeps (P := traceOk) (fun _ _ h => h)
    (fun _ _ _ hr h => traceOk_keptByOps.of_takeRequest h hr) (fun _ _ h => h) ?_ h ht
  intro d n c u v hr hu
  exact traceOk_of_prefix (takeRequest_par hr).symm (abandonAfter_trace_prefix n c hr)
    (traceOk_keptByOps.of_takeRequest hu hr)

/-! ### The outcomes of a write and of a line-set (R55, R56, R57) -/

theorem writeReply_of_fail {a : Answer} (maxXfer : Nat) (bs : List Byte) (h : a.reply = .fail) :
    writeReply maxXfer bs a = .fail := by
  simp [writeReply, h]

theorem busWrite_ok {bs : List Byte} {s : State}
    (h : writeReply s.par.maxXfer bs (answerAt s 0) = .ok) :
    busWrite bs s =
      ({ skipAnswers 1 s with trace := s.trace ++ [.write bs bs.length .ok] }, .ok) := by
  simp [busWrite, h, writeDelivered]

theorem busWrite_fail {bs : List Byte} {s : State}
    (h : writeReply s.par.maxXfer bs (answerAt s 0) = .fail) :
    busWrite bs s =
      ({ skipAnswers 1 s with
          trace := s.trace ++ [.write bs (min (answerAt s 0).delivered bs.length) .fail] }, .fail) := by
  simp [busWrite, h, writeDelivered]

/-- An answer put in front is the next one, and using it leaves the state as it was. -/
theorem skipAnswers_one_cons (a : Answer) (s : State) :
    skipAnswers 1 { s with answers := a :: s.answers } = s := by
  simp [skipAnswers]

/-- Settles O18: the write's reply is `ok` in the first case and `fail` in the other two, and the
count delivered is the answer's, cut to the write's length. -/
theorem busWriteOutcomes : Obligations.BusWriteOutcomes := by
  unfold Obligations.BusWriteOutcomes
  intro bs s
  refine ⟨?_, ?_, ?_⟩
  · intro hok hfits
    exact busWrite_ok ((writeReply_fits hfits).trans hok)
  · intro hfail
    have hreply : writeReply s.par.maxXfer bs (answerAt s 0) = .fail :=
      hfail.elim (writeReply_of_fail _ bs) writeReply_long
    exact ⟨_, Nat.min_le_right _ _, busWrite_fail hreply⟩
  · intro k hk
    rw [busWrite_fail (writeReply_of_fail _ bs rfl), skipAnswers_one_cons]
    simp [answerAt, Nat.min_eq_left hk]

/-- Settles O19: over `MAX_XFER` the write's reply is `fail` whatever the answer, within it the
answer's. -/
theorem overlongWriteFails : Obligations.OverlongWriteFails := by
  unfold Obligations.OverlongWriteFails
  intro bs s
  constructor
  · intro hlong
    rw [busWrite_fail (writeReply_long hlong)]
    exact ⟨rfl, _, Nat.min_le_right _ _, rfl⟩
  · intro hfits
    rw [busWrite_reply, writeReply_fits hfits]

theorem lineSet_ok (level : Level) {s : State} (h : (answerAt s 0).reply = .ok) :
    lineSet level s =
      ({ skipAnswers 1 s with trace := s.trace ++ [.line level .ok], dc := .driven level }, .ok) := by
  simp [lineSet, h, dcAfter]

theorem lineSet_fail (level : Level) {s : State} (h : (answerAt s 0).reply = .fail) :
    lineSet level s =
      ({ skipAnswers 1 s with trace := s.trace ++ [.line level .fail], dc := .unknown }, .fail) := by
  simp [lineSet, h, dcAfter]

/-- The write behind a line-set uses the answer after the line-set's. -/
theorem answerAt_lineSet (level : Level) (s : State) :
    answerAt (lineSet level s).1 0 = answerAt s 1 :=
  (answerAt_congr rfl rfl 0).trans (answerAt_skipAnswers 1 0 s)

/-- Settles O20: the event and `DC` both take the answer's reply. -/
theorem lineSetOutcomes : Obligations.LineSetOutcomes :=
  fun level _ => ⟨lineSet_ok level, lineSet_fail level⟩

/-! ### One event per answer (R59, R63) -/

/-- A frame step makes at most a line-set and a write (R90). -/
theorem frame_trace_length (level : Level) (bs : List Byte) (step : Nat) (s : State) :
    (frame level bs step s).1.trace.length ≤ s.trace.length + 2 := by
  obtain ⟨_, e⟩ | ⟨_, _, e⟩ | ⟨_, _, _, e⟩ | ⟨_, _, _, e⟩ := frame_cases level bs step s <;>
    rw [e] <;> simp

theorem frames_trace_length (fs : List FrameStep) (step : Nat) (s : State) :
    (frames fs step s).1.trace.length ≤ s.trace.length + 2 * fs.length := by
  induction fs generalizing step s with
  | nil => exact Nat.le_refl _
  | cons f fs ih =>
    rw [List.length_cons]
    rcases hr : frame f.1 f.2 step s with ⟨t, failure⟩
    have hf : t.trace.length ≤ s.trace.length + 2 := by
      simpa only [hr] using frame_trace_length f.1 f.2 step s
    cases failure with
    | none =>
      rw [frames_cons_ok hr]
      have := ih (step + 1) t
      omega
    | some r =>
      rw [frames_cons_fail hr]
      exact hf.trans (by omega)

/-- Before its frame steps a request touches nothing that they read or write. -/
theorem beforeFrames_accept_eq_carry (s : State) (i : Instr) :
    beforeFrames (accept s) i = carry (beforeFrames (accept s) i) s := by
  cases i <;> rfl

/-- A request leaves the trace and the transport's answers as at most five frame steps, run on the state
it found, leave them. -/
theorem exec_transport {i : Instr} {s t : State} (h : exec i s = .next t) :
    ∃ fs : List FrameStep, fs.length ≤ 5 ∧ t.trace = (frames fs 0 s).1.trace ∧
      t.answers = (frames fs 0 s).1.answers ∧ t.draws = (frames fs 0 s).1.draws := by
  obtain ⟨_, rfl⟩ | ⟨_, st, r, rfl, _⟩ := exec_cases h
  · exact ⟨[], by simp, rfl, rfl, rfl⟩
  · refine ⟨_, frameStepsOf_length (accept s) i, ?_⟩
    rw [beforeFrames_accept_eq_carry, frames_carry]
    exact ⟨rfl, rfl, rfl⟩

/-- Settles O16: a request is at most five frame steps, which use one answer per event, two at most
each. -/
theorem oneEventPerTransportAnswer : Obligations.OneEventPerTransportAnswer := by
  unfold Obligations.OneEventPerTransportAnswer
  intro i s t ht
  obtain ⟨fs, hfs, htrace, hanswers, hdraws⟩ := exec_transport ht
  obtain ⟨es, dc, hes, e⟩ := frames_emits fs 0 s
  have hlength := frames_trace_length fs 0 s
  rw [e] at htrace hanswers hdraws hlength
  have hten : es.length ≤ 10 := by
    rw [List.length_append] at hlength
    omega
  exact ⟨es, htrace, hanswers, hdraws, hten, hes⟩

/-! ### What reaches the panel (R52, R53) -/

theorem deliveredFrom_append (dc : Dc) (es fs : List Event) :
    deliveredFrom dc (es ++ fs) = deliveredFrom dc es ++ deliveredFrom (lineFrom dc es) fs := by
  induction es generalizing dc with
  | nil => rfl
  | cons e es ih =>
    match e with
    | .line level .ok => exact ih (.driven level)
    | .line level .fail => exact ih .unknown
    | .write _ _ _ => simp only [List.cons_append, deliveredFrom, lineFrom, ih, List.append_assoc]

theorem delivered_append (es fs : List Event) :
    delivered (es ++ fs) = delivered es ++ deliveredFrom (lineFrom .unknown es) fs :=
  deliveredFrom_append .unknown es fs

/-- A frame step that raises no error delivers its bytes under its level, whatever the line was at
before. -/
theorem frame_delivered {level : Level} {bs : List Byte} {step : Nat} {s : State}
    (h : (frame level bs step s).2 = none) :
    delivered (frame level bs step s).1.trace =
      delivered s.trace ++ bs.map (fun b => (.driven level, b)) := by
  obtain ⟨_, e⟩ | ⟨h0, rfl, e⟩ | ⟨_, _, _, e⟩ | ⟨h0, _, h1, e⟩ := frame_cases level bs step s
  · simp [e] at h
  · rw [e, lineSet_trace, delivered_append, h0]
    rfl
  · simp [e] at h
  · rw [← answerAt_lineSet level] at h1
    rw [e, busWrite_ok h1, lineSet_trace, h0, List.append_assoc, delivered_append]
    simp [deliveredFrom]

/-- The status of a request made of frame steps is `OK` only if none of them failed. -/
theorem frames_ok_of_status {fs : List FrameStep} {s : State}
    (h : (runFrames fs s).rspStatus = some 0) : (frames fs 0 s).2 = none := by
  unfold runFrames endFrames at h
  cases hr : (frames fs 0 s).2 with
  | none => rfl
  | some r => simp [hr, raiseError, statusCode] at h

theorem frames_singleton (f : FrameStep) (step : Nat) (s : State) :
    frames [f] step s = frame f.1 f.2 step s := by
  rcases h : frame f.1 f.2 step s with ⟨t, _ | r⟩
  · exact frames_cons_ok h
  · exact frames_cons_fail h

theorem runFrames_trace (fs : List FrameStep) (s : State) :
    (runFrames fs s).trace = (frames fs 0 s).1.trace := by
  obtain e | ⟨_, _, _, e⟩ := runFrames_cases fs s <;> rw [e, respond_trace]

/-- A request of one frame step that answers `OK` delivers its bytes under its level. -/
theorem runFrames_singleton_delivered {level : Level} {p : List Byte} {s : State}
    (h : (runFrames [(level, p)] s).rspStatus = some 0) :
    delivered (runFrames [(level, p)] s).trace =
      delivered s.trace ++ p.map (fun b => (.driven level, b)) := by
  have hok := frames_ok_of_status h
  rw [frames_singleton] at hok
  rw [runFrames_trace, frames_singleton]
  exact frame_delivered hok

theorem exec_live {i : Instr} {s t : State} (hlive : s.live = true) (h : exec i s = .next t) :
    t = bodyOf i (accept s) := by
  rw [exec_eq_runRequest, runRequest_live hlive, Host.Outcome.next.injEq] at h
  exact h.symm

/-- Settles O28: each is a request of one frame step, at the low and at the high level. -/
theorem payloadReachesPanelUnderItsLevel : Obligations.PayloadReachesPanelUnderItsLevel := by
  unfold Obligations.PayloadReachesPanelUnderItsLevel
  intro p s t hlive hok
  constructor
  · intro ht
    obtain rfl := exec_live hlive ht
    exact runFrames_singleton_delivered hok
  · intro ht
    obtain rfl := exec_live hlive ht
    exact runFrames_singleton_delivered hok

end Sys2Proof.Proofs

/-! The request descriptor (30_encoding.md): the decoder's checks and operand assembly as lemmas, how a
taken descriptor runs, the assembler's table, and WIN as its pseudo-instructions. -/

namespace Sys2Proof.Proofs

open Sys2Proof.Machine Sys2Proof.Safety Sys2Proof.Laws

/-- Settles O1: ten closed words, decoded. -/
theorem tableRowsDecode : Obligations.TableRowsDecode := by
  unfold Obligations.TableRowsDecode
  decide

/-! ### The well-formedness of a descriptor (R71, R77) -/

theorem descriptor_wellFormed_iff (d : Descriptor) :
    d.wellFormed = true ↔ d.payload.length = (d.cw.extractLsb' 16 16).toNat :=
  beq_iff_eq

/-- Settles O5: a well-formed descriptor's payload has the length that `CW` holds. -/
theorem descriptorLengthFromControlWord : Obligations.DescriptorLengthFromControlWord := by
  unfold Obligations.DescriptorLengthFromControlWord
  intro d e hd he
  rw [descriptor_wellFormed_iff] at hd he
  exact ⟨by rw [Descriptor.byteLength, Descriptor.len, hd], fun h => by rw [hd, he, h]⟩

/-! ### The operation sets of the decode checks (R73, R80) -/

theorem not_mem_legalOps_iff (op : Byte) : op ∉ legalOps ↔ op.toNat = 0 ∨ 8 < op.toNat := by
  simp only [legalOps, List.mem_cons, List.not_mem_nil, or_false, BitVec.toNat_eq]
  simp
  omega

theorem mem_noPayloadOps_iff {op : Byte} (h : op ∈ legalOps) :
    op ∈ noPayloadOps ↔ 3 ≤ op.toNat := by
  have hrange := mt (not_mem_legalOps_iff op).mpr (not_not.mpr h)
  simp only [noPayloadOps, List.mem_cons, List.not_mem_nil, or_false, BitVec.toNat_eq]
  simp
  omega

theorem mem_noArgumentOps_iff (op : Byte) :
    op ∈ noArgumentOps ↔ op.toNat = 1 ∨ op.toNat = 2 ∨ op.toNat = 7 ∨ op.toNat = 8 := by
  simp [noArgumentOps, BitVec.toNat_eq]

theorem mem_byteArgumentOps_iff (op : Byte) :
    op ∈ byteArgumentOps ↔ op.toNat = 3 ∨ op.toNat = 4 := by
  simp [byteArgumentOps, BitVec.toNat_eq]

/-! ### The decoder (R74, R80) -/

/-- The decode checks as a choice between two outcomes, with the operation sets as conditions on the
operation number. -/
theorem decodeCheck_elim {α : Type} (cw aw : Word) (rejected legal : α) :
    (decodeCheck cw aw).elim legal (fun _ => rejected) =
      if cw.extractLsb' 8 8 ≠ 0 then rejected
      else if (cw.extractLsb' 0 8).toNat = 0 ∨ 8 < (cw.extractLsb' 0 8).toNat then rejected
      else if 3 ≤ (cw.extractLsb' 0 8).toNat ∧ cw.extractLsb' 16 16 ≠ 0 then rejected
      else if ((cw.extractLsb' 0 8).toNat = 1 ∨ (cw.extractLsb' 0 8).toNat = 2 ∨
          (cw.extractLsb' 0 8).toNat = 7 ∨ (cw.extractLsb' 0 8).toNat = 8) ∧ aw ≠ 0 then rejected
      else if ((cw.extractLsb' 0 8).toNat = 3 ∨ (cw.extractLsb' 0 8).toNat = 4) ∧
          aw.extractLsb' 8 24 ≠ 0 then rejected
      else legal := by
  unfold decodeCheck
  by_cases hop : cw.extractLsb' 0 8 ∈ legalOps
  · simp only [mem_noPayloadOps_iff hop, mem_noArgumentOps_iff, mem_byteArgumentOps_iff,
      not_mem_legalOps_iff]
    simp only [apply_ite (fun check : Option DecodeError => check.elim legal fun _ => rejected),
      Option.elim_some, Option.elim_none]
  · simp only [hop, not_false_eq_true, if_true, (not_mem_legalOps_iff _).mp hop,
      apply_ite (fun check : Option DecodeError => check.elim legal fun _ => rejected),
      Option.elim_some]

/-- What passes the decode checks names an operation of R73. -/
theorem op_mem_legalOps_of_check_none {d : Descriptor} (h : decodeCheck d.cw d.aw = none) :
    d.op ∈ legalOps := by
  by_contra hop
  change d.cw.extractLsb' 0 8 ∉ legalOps at hop
  unfold decodeCheck at h
  simp only [hop, not_false_eq_true, if_true] at h
  split at h <;> simp at h

/-- The request that a descriptor's operation number names, with the operands of R74. -/
def requestOf (d : Descriptor) : Instr :=
  if d.op.toNat = 1 then .sendc d.payload
  else if d.op.toNat = 2 then .sendd d.payload
  else if d.op.toNat = 3 then .cmd (d.aw.extractLsb' 0 8)
  else if d.op.toNat = 4 then .dat (d.aw.extractLsb' 0 8)
  else if d.op.toNat = 5 then
    .cvt (d.aw.extractLsb' 24 8) (d.aw.extractLsb' 16 8) (d.aw.extractLsb' 8 8)
      (d.aw.extractLsb' 0 8)
  else if d.op.toNat = 6 then .rot d.aw
  else if d.op.toNat = 7 then .size
  else .win

theorem assembleOperands_of_legal {d : Descriptor} (h : d.op ∈ legalOps) :
    assembleOperands d = some (requestOf d) := by
  simp only [legalOps, List.mem_cons, List.not_mem_nil, or_false] at h
  rcases h with h | h | h | h | h | h | h | h <;> simp [assembleOperands, requestOf, h]

theorem decode_of_check_some {d : Descriptor} {e : DecodeError}
    (h : decodeCheck d.cw d.aw = some e) : decode d = .error e := by
  simp only [decode, h]

theorem decode_of_check_none {d : Descriptor} (h : decodeCheck d.cw d.aw = none) :
    decode d = .ok (requestOf d) := by
  simp only [decode, h, assembleOperands_of_legal (op_mem_legalOps_of_check_none h)]

/-- The checks alone reject a descriptor: what passes them has operands. -/
theorem decode_eq_error_iff (d : Descriptor) (e : DecodeError) :
    decode d = .error e ↔ decodeCheck d.cw d.aw = some e := by
  cases h : decodeCheck d.cw d.aw with
  | some e' => simp [decode_of_check_some h]
  | none => simp [decode_of_check_none h]

/-- Settles O4: the checks reject a descriptor, and they read its two words alone. -/
theorem decodeVerdictIgnoresPayload : Obligations.DecodeVerdictIgnoresPayload := by
  unfold Obligations.DecodeVerdictIgnoresPayload
  intro cw aw p q e
  rw [decode_eq_error_iff, decode_eq_error_iff]

/-! ### A descriptor at an idle port -/

theorem step_of_wellFormed {s : State} {d : Descriptor} {rest : List PortInput}
    (hp : s.port = .request d :: rest) (hidle : s.phase = .idle) (hwf : d.wellFormed = true) :
    step s = execDescriptor d { s with port := rest } := by
  rw [step_of_port_request hp]
  simp only [takeRequest, hidle, hwf, if_true]

theorem takeRequest_illFormed {d : Descriptor} {s : State} (hidle : s.phase = .idle)
    (hwf : ¬ d.wellFormed = true) : takeRequest d s = .refused .illFormedDescriptor := by
  simp only [takeRequest, hidle, if_neg hwf]

theorem execDescriptor_of_ok {d : Descriptor} {i : Instr} (h : decode d = .ok i) (s : State) :
    execDescriptor d s = exec i s := by
  simp only [execDescriptor, h]

theorem execDescriptor_of_error {d : Descriptor} {e : DecodeError} (h : decode d = .error e)
    (s : State) : execDescriptor d s = rejectIllegal s := by
  simp only [execDescriptor, h]

/-- Settles O10: an idle port looks at the descriptor's form first. -/
theorem illFormedDescriptorRefused : Obligations.IllFormedDescriptorRefused := by
  unfold Obligations.IllFormedDescriptorRefused
  intro s d rest hp hidle hlen
  rw [step_of_port_request hp]
  exact takeRequest_illFormed hidle (mt (descriptor_wellFormed_iff d).mp hlen)

/-- Settles O7: an idle port takes the well-formed descriptor, and a taken one runs what it decodes
to. -/
theorem stepRunsDecodedRequest : Obligations.StepRunsDecodedRequest := by
  unfold Obligations.StepRunsDecodedRequest
  intro s d rest i hp hidle hwf hd
  rw [step_of_wellFormed hp hidle hwf, execDescriptor_of_ok hd]

/-- A response at an idle port writes the response registers alone. -/
theorem respond_accept_of_idle {s : State} (hidle : s.phase = .idle) (st : Status) (r : Word) :
    respond st r (accept s) =
      { s with rspStatus := some (statusCode st), rspResult := some r } := by
  rw [respond, accept, ← hidle]

/-- A dead block answers a taken descriptor, legal or not, the same (R172). -/
theorem execDescriptor_dead {s : State} (hlive : s.live = false) (d : Descriptor) :
    execDescriptor d s = .next (respond .configurationError 0 (accept s)) := by
  cases hd : decode d with
  | ok i => rw [execDescriptor_of_ok hd, exec_eq_runRequest, runRequest_dead hlive, raiseError]
  | error e => rw [execDescriptor_of_error hd, rejectIllegal, runRequest_dead hlive, raiseError]

/-- A live block rejects a taken descriptor that a check rejects, and runs any other. -/
theorem execDescriptor_live {s : State} (hlive : s.live = true) (d : Descriptor) :
    execDescriptor d s =
      (decodeCheck d.cw d.aw).elim (exec (requestOf d) s)
        fun _ => .next (respond .illegalRequest 0 (accept s)) := by
  cases h : decodeCheck d.cw d.aw with
  | none => exact execDescriptor_of_ok (decode_of_check_none h) s
  | some e =>
    rw [execDescriptor_of_error (decode_of_check_some h), rejectIllegal, runRequest_live hlive]
    rfl

theorem exec_requestOf (d : Descriptor) (s : State) :
    exec (requestOf d) s =
      if d.op.toNat = 1 then exec (.sendc d.payload) s
      else if d.op.toNat = 2 then exec (.sendd d.payload) s
      else if d.op.toNat = 3 then exec (.cmd (d.aw.extractLsb' 0 8)) s
      else if d.op.toNat = 4 then exec (.dat (d.aw.extractLsb' 0 8)) s
      else if d.op.toNat = 5 then
        exec (.cvt (d.aw.extractLsb' 24 8) (d.aw.extractLsb' 16 8) (d.aw.extractLsb' 8 8)
          (d.aw.extractLsb' 0 8)) s
      else if d.op.toNat = 6 then exec (.rot d.aw) s
      else if d.op.toNat = 7 then exec .size s
      else exec .win s := by
  simp only [requestOf, apply_ite (exec · s)]

/-- Settles O6: a dead block answers before the checks; in a live one the checks decide, in the order
of `decodeCheck_elim`, and what passes them runs as the table of `exec_requestOf`. -/
theorem requestRunsChecksInOrder : Obligations.RequestRunsChecksInOrder := by
  unfold Obligations.RequestRunsChecksInOrder
  intro s d rest hp hidle hlen t
  have hidle' : t.phase = .idle := hidle
  rw [step_of_wellFormed hp hidle ((descriptor_wellFormed_iff d).mpr hlen)]
  change execDescriptor d t = ite (t.live = false) _ _
  by_cases hlive : t.live = false
  · rw [if_pos hlive, execDescriptor_dead hlive, respond_accept_of_idle hidle']
    rfl
  · rw [if_neg hlive, execDescriptor_live (Bool.eq_true_of_not_eq_false hlive),
      respond_accept_of_idle hidle', decodeCheck_elim, exec_requestOf]
    rfl

/-! ### Numbers as descriptor words (R72, R74) -/

/-- Numbers side by side are one number, whatever bits of the high one are cut off. -/
theorem ofNat_append_ofNat {m n : Nat} (a : Nat) {b : Nat} (hb : b < 2 ^ n) :
    BitVec.ofNat m a ++ BitVec.ofNat n b = BitVec.ofNat (m + n) (a * 2 ^ n + b) := by
  apply BitVec.eq_of_toNat_eq
  rw [BitVec.toNat_append, BitVec.toNat_ofNat, BitVec.toNat_ofNat, BitVec.toNat_ofNat,
    Nat.mod_eq_of_lt hb, ← Nat.shiftLeft_add_eq_or_of_lt hb, Nat.shiftLeft_eq]
  have hlow : (a * 2 ^ n + b) % 2 ^ n = b := by
    rw [Nat.add_comm, Nat.add_mul_mod_self_right, Nat.mod_eq_of_lt hb]
  have hhigh : (a * 2 ^ n + b) / 2 ^ n = a := by
    rw [Nat.add_comm, Nat.add_mul_div_right _ _ (Nat.two_pow_pos n), Nat.div_eq_of_lt hb,
      Nat.zero_add]
  rw [Nat.add_comm m n, pow_add, Nat.mod_mul, hlow, hhigh, Nat.add_comm, Nat.mul_comm]

theorem controlWord_ofNat {op : Nat} (n : Nat) (hop : op < 2 ^ 8) :
    controlWord (BitVec.ofNat 8 op) n = BitVec.ofNat 32 (n * 65536 + op) := by
  rw [controlWord, show (0 : Byte) = BitVec.ofNat 8 0 from rfl, ofNat_append_ofNat n (by decide),
    ofNat_append_ofNat _ hop]
  exact congrArg (BitVec.ofNat 32) (by omega)

theorem byteArgument_ofNat {n : Nat} (h : n < 2 ^ 8) :
    (0 : BitVec 24) ++ BitVec.ofNat 8 n = BitVec.ofNat 32 n := by
  rw [show (0 : BitVec 24) = BitVec.ofNat 24 0 from rfl, ofNat_append_ofNat 0 h, Nat.zero_mul,
    Nat.zero_add]

theorem channels_ofNat {r g b a : Nat} (hg : g < 2 ^ 8) (hb : b < 2 ^ 8) (ha : a < 2 ^ 8) :
    BitVec.ofNat 8 r ++ BitVec.ofNat 8 g ++ BitVec.ofNat 8 b ++ BitVec.ofNat 8 a =
      BitVec.ofNat 32 (r * 2 ^ 24 + g * 2 ^ 16 + b * 2 ^ 8 + a) := by
  rw [ofNat_append_ofNat r hg, ofNat_append_ofNat _ hb, ofNat_append_ofNat _ ha]
  exact congrArg (BitVec.ofNat 32) (by omega)

/-! ### The assembler's table (R81) -/

theorem byteOperand_num (p : Params) (n : Nat) :
    byteOperand p (.num n) = if n ≤ 255 then some (BitVec.ofNat 8 n) else none := by
  simp only [byteOperand, Nat.lt_succ_iff (n := 255)]

theorem byteOperands_toNat (p : Params) (bs : List Byte) :
    byteOperands p (bs.map fun b => .num b.toNat) = some bs := by
  induction bs with
  | nil => rfl
  | cons b bs ih =>
    have hb : byteOperand p (.num b.toNat) = some b := by
      rw [byteOperand_num, if_pos (Nat.le_of_lt_succ b.isLt), BitVec.ofNat_toNat, BitVec.setWidth_eq]
    simp only [List.map_cons, byteOperands, hb, ih]

theorem ifAllFit_singleton {i : Instr} (h : i.wellFormed = true) : ifAllFit [i] = some [i] := by
  simp [ifAllFit, h]

theorem wordOperand_num (n : Nat) :
    wordOperand (.num n) = if n ≤ 2 ^ 32 - 1 then some (BitVec.ofNat 32 n) else none := by
  simp only [wordOperand, Nat.lt_iff_le_pred (Nat.two_pow_pos 32)]

theorem encode_payload (bs : List Byte) :
    encode (.sendc bs) = ⟨BitVec.ofNat 32 (bs.length * 65536 + 1), 0, bs⟩ ∧
    encode (.sendd bs) = ⟨BitVec.ofNat 32 (bs.length * 65536 + 2), 0, bs⟩ := by
  rw [← controlWord_ofNat bs.length (by decide), ← controlWord_ofNat bs.length (by decide)]
  exact ⟨rfl, rfl⟩

theorem encode_byteArgument {n : Nat} (h : n ≤ 255) :
    encode (.cmd (BitVec.ofNat 8 n)) = ⟨3, BitVec.ofNat 32 n, []⟩ ∧
    encode (.dat (BitVec.ofNat 8 n)) = ⟨4, BitVec.ofNat 32 n, []⟩ := by
  rw [← byteArgument_ofNat (Nat.lt_succ_of_le h)]
  exact ⟨rfl, rfl⟩

theorem encode_cvt {r g b a : Nat} (hg : g ≤ 255) (hb : b ≤ 255) (ha : a ≤ 255) :
    encode (.cvt (BitVec.ofNat 8 r) (BitVec.ofNat 8 g) (BitVec.ofNat 8 b) (BitVec.ofNat 8 a)) =
      ⟨5, BitVec.ofNat 32 (r * 2 ^ 24 + g * 2 ^ 16 + b * 2 ^ 8 + a), []⟩ := by
  rw [← channels_ofNat (Nat.lt_succ_of_le hg) (Nat.lt_succ_of_le hb) (Nat.lt_succ_of_le ha)]
  rfl

theorem assemble_payload (p : Params) {bs : List Byte} (h : bs.length ≤ 65535) :
    assemble p ⟨.sendc, bs.map fun b => .num b.toNat⟩ = some [.sendc bs] ∧
    assemble p ⟨.sendd, bs.map fun b => .num b.toNat⟩ = some [.sendd bs] := by
  simp only [assemble, byteOperands_toNat, Option.bind_some]
  exact ⟨ifAllFit_singleton (decide_eq_true h), ifAllFit_singleton (decide_eq_true h)⟩

theorem assemble_byteArgument (p : Params) (n : Nat) :
    assemble p ⟨.cmd, [.num n]⟩ = (if n ≤ 255 then some [.cmd (BitVec.ofNat 8 n)] else none) ∧
    assemble p ⟨.dat, [.num n]⟩ = (if n ≤ 255 then some [.dat (BitVec.ofNat 8 n)] else none) := by
  simp only [assemble, byteOperand_num]
  split <;> exact ⟨rfl, rfl⟩

theorem assemble_rot (p : Params) (n : Nat) :
    assemble p ⟨.rot, [.num n]⟩ =
      if n ≤ 2 ^ 32 - 1 then some [.rot (BitVec.ofNat 32 n)] else none := by
  simp only [assemble, wordOperand_num]
  split <;> rfl

theorem assemble_cvt (p : Params) (r g b a : Nat) :
    assemble p ⟨.cvt, [.num r, .num g, .num b, .num a]⟩ =
      if r ≤ 255 ∧ g ≤ 255 ∧ b ≤ 255 ∧ a ≤ 255 then
        some [.cvt (BitVec.ofNat 8 r) (BitVec.ofNat 8 g) (BitVec.ofNat 8 b) (BitVec.ofNat 8 a)]
      else none := by
  simp only [assemble, byteOperand_num]
  by_cases hr : r ≤ 255
  · by_cases hg : g ≤ 255
    · by_cases hb : b ≤ 255
      · by_cases ha : a ≤ 255 <;> simp [hr, hg, hb, ha]
      · simp [hr, hg, hb]
    · simp [hr, hg]
  · simp [hr]

/-- The descriptor of a line that assembles to one request under a condition on its operands. -/
theorem map_encode_ite {c : Prop} [Decidable c] {i : Instr} {d : Descriptor}
    (h : c → encode i = d) :
    (if c then some [i] else none).map (·.map encode) = if c then some [d] else none := by
  split_ifs with hc
  · rw [← h hc]
    rfl
  · rfl

/-- Settles O59: each line assembles to its request, or does not where an operand is out of range, and
`encode` of that request is the table's descriptor. -/
theorem assemblyGivesTheDescriptors : Obligations.AssemblyGivesTheDescriptors := by
  unfold Obligations.AssemblyGivesTheDescriptors
  intro p
  refine ⟨fun bs hlen => ?_, fun n => ?_, fun n => ?_, fun r g b a => ?_, fun n => ?_, rfl, rfl⟩
  · obtain ⟨hsendc, hsendd⟩ := assemble_payload p hlen
    obtain ⟨ec, ed⟩ := encode_payload bs
    rw [hsendc, hsendd, ← ec, ← ed]
    exact ⟨rfl, rfl⟩
  · rw [(assemble_byteArgument p n).1]
    exact map_encode_ite fun h => (encode_byteArgument h).1
  · rw [(assemble_byteArgument p n).2]
    exact map_encode_ite fun h => (encode_byteArgument h).2
  · rw [assemble_cvt]
    exact map_encode_ite fun ⟨_, hg, hb, ha⟩ => encode_cvt hg hb ha
  · rw [assemble_rot]
    exact map_encode_ite fun _ => rfl

/-! ### Requests whose frame steps all succeed -/

/-- The state that a live request leaves when its frame steps `fs` all succeed (R78, R90). -/
def answeredOk (fs : List FrameStep) (s : State) : State := respond .ok 0 (afterOk fs (accept s))

/-- A live request made of frame steps that fit, every transaction answered `ok`. -/
theorem exec_eq_answeredOk {i : Instr} {fs : List FrameStep} {s : State} (hlive : s.live = true)
    (hbody : bodyOf i (accept s) = runFrames fs (accept s))
    (hfit : ∀ f ∈ fs, Fits s.par.maxXfer f) (hok : transportOk (2 * fs.length) s) :
    exec i s = .next (answeredOk fs s) := by
  rw [exec_eq_runRequest, runRequest_live hlive, hbody, runFrames,
    frames_ok (s := accept s) 0 hfit hok]
  rfl

/-- Between two requests only the phase and the response move, and the second writes both again. -/
theorem answeredOk_answeredOk (fs gs : List FrameStep) (s : State) :
    answeredOk gs (answeredOk fs s) = answeredOk (fs ++ gs) s := by
  rw [answeredOk, answeredOk, answeredOk, ← afterOk_append]
  rfl

theorem transportOk_answeredOk {n : Nat} {fs : List FrameStep} {s : State}
    (h : transportOk (2 * fs.length + n) s) : transportOk n (answeredOk fs s) :=
  transportOk_afterOk (s := accept s) h

/-- The request is one frame step, `f`, on every state. -/
def OneFrame (i : Instr) (f : FrameStep) : Prop := ∀ t, bodyOf i t = runFrames [f] t

/-- Requests of one frame step each, behind a request that succeeded. -/
theorem execAll_answeredOk {is : List Instr} {fs : List FrameStep} (h : List.Forall₂ OneFrame is fs)
    (gs : List FrameStep) {s : State} (hlive : s.live = true)
    (hfit : ∀ f ∈ fs, Fits s.par.maxXfer f) (hok : transportOk (2 * (gs ++ fs).length) s) :
    execAll is (answeredOk gs s) = .next (answeredOk (gs ++ fs) s) := by
  induction h generalizing gs with
  | nil => rw [List.append_nil]; rfl
  | @cons i f is fs hi _ ih =>
    have hi' : exec i (answeredOk gs s) = .next (answeredOk [f] (answeredOk gs s)) :=
      exec_eq_answeredOk hlive (hi _) (List.forall_mem_singleton.mpr (hfit f List.mem_cons_self))
        (transportOk_answeredOk fun k hk => hok k (by
          simp only [List.length_append, List.length_cons, List.length_nil] at hk ⊢; omega))
    rw [List.append_cons] at hok ⊢
    rw [execAll, hi', answeredOk_answeredOk]
    exact ih _ (fun g hg => hfit g (List.mem_cons_of_mem f hg)) hok

/-- Requests of one frame step each, run one after another, are one request of all their frame steps
when every transaction succeeds. -/
theorem execAll_oneFrame {i : Instr} {is : List Instr} {f : FrameStep} {fs : List FrameStep}
    (hi : OneFrame i f) (his : List.Forall₂ OneFrame is fs) {s : State} (hlive : s.live = true)
    (hfit : ∀ g ∈ f :: fs, Fits s.par.maxXfer g) (hok : transportOk (2 * (f :: fs).length) s) :
    execAll (i :: is) s = .next (answeredOk (f :: fs) s) := by
  have hfirst : exec i s = .next (answeredOk [f] s) :=
    exec_eq_answeredOk hlive (hi _) (List.forall_mem_singleton.mpr (hfit f List.mem_cons_self))
      (fun k hk => hok k (by simp only [List.length_cons, List.length_nil] at hk ⊢; omega))
  rw [execAll, hfirst]
  exact execAll_answeredOk his [f] hlive (fun g hg => hfit g (List.mem_cons_of_mem f hg)) hok

/-- Settles O42: the five requests carry WIN's five frame steps, one each. -/
theorem winEqualsItsPseudoInstructions : Obligations.WinEqualsItsPseudoInstructions := by
  unfold Obligations.WinEqualsItsPseudoInstructions
  intro s hlive hmax hok
  have hfit := winFrames_fit hmax s
  have hwin : exec .win s = .next (answeredOk (winFrames s) s) :=
    exec_eq_answeredOk hlive rfl hfit hok
  have hcmd (c : Byte) : OneFrame (.cmd c) (.low, [c]) := fun _ => rfl
  have hsendd (bs : List Byte) : OneFrame (.sendd bs) (.high, bs) := fun _ => rfl
  rw [hwin]
  exact execAll_oneFrame (hcmd _)
    (.cons (hsendd _) (.cons (hcmd _) (.cons (hsendd _) (.cons (hcmd _) .nil)))) hlive hfit hok

end Sys2Proof.Proofs

/-! The framer (40_framer.md): the request of frame steps that a live block runs, how the first frame
step that fails ends it, and the four requests of one frame step. -/

namespace Sys2Proof.Proofs

open Sys2Proof.Machine Sys2Proof.Safety Sys2Proof.Laws

/-! ### A live request of frame steps -/

/-- A request that has a frame step is its frame steps, run on the accepted state behind ROT's register
writes. -/
theorem bodyOf_eq_runFrames {i : Instr} {s : State} (h : frameStepsOf s i ≠ []) :
    bodyOf i (accept s) = runFrames (frameStepsOf s i) (beforeFrames (accept s) i) := by
  cases i with
  | cvt _ _ _ _ | size => exact absurd rfl h
  | sendc _ | sendd _ | cmd _ | dat _ | rot _ | win => rfl

/-- The answer to a request whose frame steps, run on the state the request found, left nothing but
answers used, a trace and `DC`. -/
theorem respond_carry_beforeFrames (st : Status) (r : Word) (i : Instr) (n : Nat) (s : State)
    (es : List Event) (dc : Dc) :
    respond st r (carry (beforeFrames (accept s) i)
        { skipAnswers n s with trace := es, dc := dc }) =
      { skipAnswers n (beforeFrames s i) with
        trace := es, dc := dc, phase := .idle
        rspStatus := some (statusCode st), rspResult := some r } := by
  cases i <;> rfl

/-! ### The first frame step that fails (R90, R171, R176) -/

theorem length_take_of_getElem? {α : Type} {xs : List α} {x : α} {j : Nat}
    (h : xs[j]? = some x) : (xs.take j).length = j :=
  List.length_take_of_le (Nat.le_of_lt (List.getElem?_eq_some_iff.mp h).1)

/-- Frame steps behind `j` that succeed, the first of them failing: nothing after it runs. -/
theorem frames_fail_at {fs : List FrameStep} {f : FrameStep} {j : Nat} {s t : State} {r : Word}
    (hj : fs[j]? = some f) (hfit : ∀ g ∈ fs.take j, Fits s.par.maxXfer g)
    (hok : transportOk (2 * j) s)
    (h : frame f.1 f.2 j (afterOk (fs.take j) s) = (t, some r)) : frames fs 0 s = (t, some r) := by
  obtain ⟨hlt, rfl⟩ := List.getElem?_eq_some_iff.mp hj
  have hlen : (fs.take j).length = j := length_take_of_getElem? hj
  have hsplit : fs = fs.take j ++ fs[j] :: fs.drop (j + 1) := by
    rw [← List.drop_eq_getElem_cons hlt, List.take_append_drop]
  rw [hsplit, frames_append_ok 0 hfit (by rwa [hlen]), hlen, Nat.zero_add, frames_cons_fail h]

/-- A live request ends at its first frame step that fails, with that step's record. -/
theorem exec_of_frame_fails {i : Instr} {s : State} {j n : Nat} {f : FrameStep} {es : List Event}
    {dc : Dc} {r : Word} (hlive : s.live = true) (hj : (frameStepsOf s i)[j]? = some f)
    (hfit : ∀ g ∈ (frameStepsOf s i).take j, Fits s.par.maxXfer g) (hok : transportOk (2 * j) s)
    (h : frame f.1 f.2 j (afterOk ((frameStepsOf s i).take j) s) =
      ({ skipAnswers n s with trace := es, dc := dc }, some r)) :
    exec i s = .next
      { skipAnswers n (beforeFrames s i) with
        trace := es, dc := dc, phase := .idle
        rspStatus := some (statusCode .transportError), rspResult := some r } := by
  have hne : frameStepsOf s i ≠ [] := List.ne_nil_of_mem (List.mem_of_getElem? hj)
  rw [exec_eq_runRequest, runRequest_live hlive, bodyOf_eq_runFrames hne, runFrames,
    beforeFrames_accept_eq_carry, frames_carry, frames_fail_at hj hfit hok h,
    ← respond_carry_beforeFrames]
  rfl

theorem skipAnswers_afterOk (n : Nat) (fs : List FrameStep) (s : State) :
    skipAnswers n (afterOk fs s) =
      { skipAnswers (2 * fs.length + n) s with
        trace := s.trace ++ fs.flatMap okEvents, dc := lastDc s.dc fs } := by
  rw [← skipAnswers_skipAnswers n]
  rfl

/-- A frame step whose line-set fails, behind frame steps that succeeded. -/
theorem frame_line_fail_afterOk {fs : List FrameStep} {level : Level} {s : State} (bs : List Byte)
    (h : (answerAt s (2 * fs.length)).reply = .fail) :
    frame level bs fs.length (afterOk fs s) =
      ({ skipAnswers (2 * fs.length + 1) s with
          trace := s.trace ++ (fs.flatMap okEvents ++ [.line level .fail]), dc := .unknown },
        some (failureRecord fs.length .lineSet)) := by
  have h0 : (answerAt (afterOk fs s) 0).reply = .fail := by rwa [answerAt_afterOk]
  rw [frame_line_fail bs _ h0, lineSet_fail level h0, skipAnswers_afterOk, ← List.append_assoc]
  rfl

/-- The state that a frame step with a failing write leaves: its line-set is made, its write delivers a
prefix. -/
theorem frame_write_fail_state {level : Level} {bs : List Byte} {s : State} (step : Nat)
    (hbs : bs ≠ []) (h0 : (answerAt s 0).reply = .ok)
    (h1 : writeReply s.par.maxXfer bs (answerAt s 1) = .fail) :
    frame level bs step s =
      ({ skipAnswers 2 s with
          trace := s.trace ++
            [.line level .ok, .write bs (min (answerAt s 1).delivered bs.length) .fail]
          dc := .driven level },
        some (failureRecord step .write)) := by
  have hwrite := h1
  rw [← answerAt_lineSet level] at hwrite
  rw [frame_write_fail step hbs h0 h1, busWrite_fail hwrite, answerAt_lineSet, lineSet_ok level h0,
    ← skipAnswers_skipAnswers 1 1, List.append_cons _ _ [_]]
  rfl

/-- A frame step whose line-set succeeds and whose write fails, behind frame steps that succeeded. -/
theorem frame_write_fail_afterOk {fs : List FrameStep} {level : Level} {bs : List Byte} {s : State}
    (hbs : bs ≠ []) (h0 : (answerAt s (2 * fs.length)).reply = .ok)
    (h1 : writeReply s.par.maxXfer bs (answerAt s (2 * fs.length + 1)) = .fail) :
    frame level bs fs.length (afterOk fs s) =
      ({ skipAnswers (2 * fs.length + 2) s with
          trace := s.trace ++ (fs.flatMap okEvents ++ [.line level .ok,
            .write bs (min (answerAt s (2 * fs.length + 1)).delivered bs.length) .fail])
          dc := .driven level },
        some (failureRecord fs.length .write)) := by
  rw [← answerAt_afterOk] at h1
  rw [frame_write_fail_state _ hbs (by rwa [answerAt_afterOk]) h1, answerAt_afterOk,
    skipAnswers_afterOk, ← List.append_assoc]
  rfl

/-! ### The failure record (R171) -/

theorem failureRecord_lineSet {k : Nat} (h : k < 2 ^ 8) :
    failureRecord k .lineSet = BitVec.ofNat 32 k := by
  have hstep : failureRecord k .lineSet = (BitVec.ofNat 8 k).setWidth 32 := by
    simp [failureRecord, stageBit]
  rw [hstep]
  apply BitVec.eq_of_toNat_eq
  rw [BitVec.toNat_setWidth, BitVec.toNat_ofNat, BitVec.toNat_ofNat, Nat.mod_eq_of_lt h]

/-- The stage bit lies above the step's number, so that `|` adds it. -/
theorem failureRecord_write {k : Nat} (h : k < 2 ^ 8) :
    failureRecord k .write = BitVec.ofNat 32 (k + 256) := by
  have hor : 256 + k = 256 ||| k := Nat.shiftLeft_add_eq_or_of_lt h 1
  have hstep : failureRecord k .write = failureRecord k .lineSet ||| BitVec.ofNat 32 256 := by
    simp [failureRecord, stageBit]
  rw [hstep, failureRecord_lineSet h, ← BitVec.ofNat_or, Nat.or_comm, ← hor, Nat.add_comm]

/-- A request has at most five frame steps, so their numbers fit the record's low byte. -/
theorem frameStep_index_lt {i : Instr} {s : State} {j : Nat} {f : FrameStep}
    (h : (frameStepsOf s i)[j]? = some f) : j < 2 ^ 8 := by
  obtain ⟨hlt, _⟩ := List.getElem?_eq_some_iff.mp h
  have := frameStepsOf_length s i
  omega

/-- Settles O25: the step's line-set fails behind steps that succeed, and nothing runs after it. -/
theorem failedLineSetEndsRequest : Obligations.FailedLineSetEndsRequest := by
  unfold Obligations.FailedLineSetEndsRequest
  intro i s j level bs hlive hj hfit hok hfail
  have hlen : ((frameStepsOf s i).take j).length = j := length_take_of_getElem? hj
  have hstep := frame_line_fail_afterOk (fs := (frameStepsOf s i).take j) (level := level) bs
    (by rwa [hlen])
  rw [hlen, failureRecord_lineSet (frameStep_index_lt hj)] at hstep
  exact exec_of_frame_fails hlive hj hfit hok hstep

/-- Settles O26: the step's write fails behind its line-set and steps that succeed, by its answer or
its length, and nothing runs after it. -/
theorem failedWriteEndsRequest : Obligations.FailedWriteEndsRequest := by
  unfold Obligations.FailedWriteEndsRequest
  intro i s j level bs hlive hj hbs hfit hok hfail
  have hlen : ((frameStepsOf s i).take j).length = j := length_take_of_getElem? hj
  have hreply : writeReply s.par.maxXfer bs (answerAt s (2 * j + 1)) = .fail :=
    hfail.elim (writeReply_of_fail _ bs) writeReply_long
  have hstep := frame_write_fail_afterOk (fs := (frameStepsOf s i).take j) (level := level) hbs
    (by rw [hlen]; exact hok _ (Nat.lt_succ_self _)) (by rwa [hlen])
  rw [hlen, failureRecord_write (frameStep_index_lt hj)] at hstep
  exact exec_of_frame_fails hlive hj hfit (fun k hk => hok k (Nat.lt_succ_of_lt hk)) hstep

/-! ### Requests of one frame step -/

/-- A request of one frame step over `MAX_XFER` fails at the line-set or at the write. -/
theorem exec_overlong {i : Instr} {f : FrameStep} {s : State} (hlive : s.live = true)
    (hi : frameStepsOf s i = [f]) (hlong : s.par.maxXfer < f.2.length) :
    ∃ t, exec i s = .next t ∧ t.rspStatus = some 1 := by
  have h0 : (frameStepsOf s i)[0]? = some f := by rw [hi]; rfl
  cases hreply : (answerAt s 0).reply with
  | fail =>
    have hok : transportOk 0 s := fun _ hk => absurd hk (Nat.not_lt_zero _)
    exact ⟨_, failedLineSetEndsRequest i s 0 f.1 f.2 hlive h0 (by simp) hok hreply, rfl⟩
  | ok =>
    have hne : f.2 ≠ [] := List.ne_nil_of_length_pos (Nat.zero_lt_of_lt hlong)
    have hok : transportOk 1 s := fun k hk => by rwa [Nat.lt_one_iff.mp hk]
    exact ⟨_, failedWriteEndsRequest i s 0 f.1 f.2 hlive h0 hne (by simp) hok (.inr hlong), rfl⟩

/-- Settles O27: each is a request of one frame step that carries the payload. -/
theorem overlongPayloadNeverSucceeds : Obligations.OverlongPayloadNeverSucceeds :=
  fun p _ hlive hlong =>
    ⟨exec_overlong (f := (.low, p)) hlive rfl hlong, exec_overlong (f := (.high, p)) hlive rfl hlong⟩

/-- Settles O21: each is a request of one frame step that fits, at the low and at the high level. -/
theorem framerPayloadDelivered : Obligations.FramerPayloadDelivered := by
  unfold Obligations.FramerPayloadDelivered
  intro p s hlive hok hne hlen
  have hexec (i : Instr) (level : Level) (hi : OneFrame i (level, p)) :
      exec i s = .next (answeredOk [(level, p)] s) :=
    exec_eq_answeredOk hlive (hi _) (List.forall_mem_singleton.mpr ⟨hne, hlen⟩) hok
  exact ⟨hexec _ .low fun _ => rfl, hexec _ .high fun _ => rfl⟩

/-- Settles O24: the two requests run the same frame step. -/
theorem byteRequestsAreOneBytePayloads : Obligations.ByteRequestsAreOneBytePayloads :=
  fun _ _ => ⟨rfl, rfl⟩

/-- Settles O23: each is the delivery of a payload of one byte. -/
theorem framerByteDelivered : Obligations.FramerByteDelivered := by
  unfold Obligations.FramerByteDelivered
  intro b s hlive hok hmax
  obtain ⟨hcmd, hdat⟩ := byteRequestsAreOneBytePayloads b s
  rw [hcmd, hdat]
  exact framerPayloadDelivered [b] s hlive hok (List.cons_ne_nil b []) hmax

theorem runFrames_empty_ok {level : Level} {s : State} (h : (answerAt s 0).reply = .ok) :
    runFrames [(level, [])] s = respond .ok 0 (lineSet level s).1 := by
  rw [runFrames, frames_singleton, frame_empty_ok 0 h, endFrames]

/-- Settles O22: each is a request of one frame step of no bytes, which is its line-set. -/
theorem framerEmptyPayloadSetsLineOnly : Obligations.FramerEmptyPayloadSetsLineOnly := by
  unfold Obligations.FramerEmptyPayloadSetsLineOnly
  intro s hlive hok
  have hexec (i : Instr) (level : Level) (hi : OneFrame i (level, [])) :
      exec i s = .next (respond .ok 0 (lineSet level (accept s)).1) := by
    rw [exec_eq_runRequest, runRequest_live hlive, hi, runFrames_empty_ok (s := accept s) hok]
  rw [hexec (.sendc []) .low fun _ => rfl, hexec (.sendd []) .high fun _ => rfl,
    lineSet_ok .low (s := accept s) hok, lineSet_ok .high (s := accept s) hok]
  exact ⟨rfl, rfl⟩

end Sys2Proof.Proofs

/-! The addressing window (41_window.md): WIN's frame steps over the rotation-aware size, its
independence of the offsets, the bound on the window's ends, and where the pixels after it land. -/

namespace Sys2Proof.Proofs

open Sys2Proof.Machine Sys2Proof.Safety Sys2Proof.Laws

/-! ### The window that WIN emits (R110, R111) -/

theorem currentSize_eq (s : State) :
    currentSize s = (if s.rot = 0 ∨ s.rot = 2 then s.cfgW else s.cfgH,
      if s.rot = 0 ∨ s.rot = 2 then s.cfgH else s.cfgW) :=
  rotatedSize_eq s.cfgW s.cfgH s.rot

theorem rangeBytes_eq (n : Half) :
    rangeBytes n = [0, 0, (n - 1).extractLsb' 8 8, (n - 1).extractLsb' 0 8] := rfl

theorem winFrames_eq (s : State) :
    winFrames s =
      [(.low, [s.par.cmdCaset]),
       (.high, rangeBytes (if s.rot = 0 ∨ s.rot = 2 then s.cfgW else s.cfgH)),
       (.low, [s.par.cmdRaset]),
       (.high, rangeBytes (if s.rot = 0 ∨ s.rot = 2 then s.cfgH else s.cfgW)),
       (.low, [s.par.cmdRamwr])] := by
  rw [winFrames, currentSize_eq]

/-- Settles O39: WIN's five frame steps fit and all succeed. -/
theorem winEmitsFullWindow : Obligations.WinEmitsFullWindow := by
  unfold Obligations.WinEmitsFullWindow
  intro s hlive hmax hok
  have hwin : exec .win s = .next (answeredOk (winFrames s) s) :=
    exec_eq_answeredOk hlive rfl (winFrames_fit hmax s) hok
  rw [hwin, winFrames_eq, rangeBytes_eq, rangeBytes_eq]
  rfl

/-! ### The offsets, which WIN does not read (R112, R27) -/

/-- The state with other offsets. -/
def withOffsets (ro co : Half) (s : State) : State := { s with rowOff := ro, colOff := co }

/-- Frame steps neither read nor write the offsets, which are no part of what `carry` takes over. -/
theorem frames_withOffsets (ro co : Half) (fs : List FrameStep) (step : Nat) (s : State) :
    frames fs step (withOffsets ro co s) =
      (withOffsets ro co (frames fs step s).1, (frames fs step s).2) := by
  have hsame : carry s (frames fs step s).1 = (frames fs step s).1 :=
    (congrArg Prod.fst (frames_carry s fs step s)).symm
  calc frames fs step (withOffsets ro co s)
      = (carry (withOffsets ro co s) (frames fs step s).1, (frames fs step s).2) :=
        frames_carry (withOffsets ro co s) fs step s
    _ = (withOffsets ro co (carry s (frames fs step s).1), (frames fs step s).2) := rfl
    _ = _ := by rw [hsame]

theorem endFrames_withOffsets (ro co : Half) (t : State) (failure : Option Word) :
    endFrames (withOffsets ro co t, failure) = withOffsets ro co (endFrames (t, failure)) := by
  cases failure <;> rfl

theorem runFrames_withOffsets (ro co : Half) (fs : List FrameStep) (s : State) :
    runFrames fs (withOffsets ro co s) = withOffsets ro co (runFrames fs s) := by
  rw [runFrames, frames_withOffsets, endFrames_withOffsets]
  rfl

/-- Settles O40: WIN's frame steps are those of the state with other offsets, and running them
leaves the offsets as they are. -/
theorem winIgnoresOffsets : Obligations.WinIgnoresOffsets := by
  unfold Obligations.WinIgnoresOffsets
  intro s t ro co ht
  change exec .win (withOffsets ro co s) = .next (withOffsets ro co t)
  cases hlive : s.live with
  | false =>
    rw [exec_eq_runRequest, runRequest_dead hlive] at ht
    obtain rfl := Host.Outcome.next.inj ht
    rw [exec_eq_runRequest, runRequest_dead (s := withOffsets ro co s) hlive]
    rfl
  | true =>
    rw [exec_eq_runRequest, runRequest_live hlive] at ht
    obtain rfl := Host.Outcome.next.inj ht
    rw [exec_eq_runRequest, runRequest_live (s := withOffsets ro co s) hlive]
    exact congrArg _ (runFrames_withOffsets ro co (winFrames (accept s)) (accept s))

/-! ### The window's ends (R113) -/

/-- The last index of a panel dimension does not wrap and is on the largest panel (R35). -/
theorem lastIndex_of_dimension {n : Half} (h1 : 1 ≤ n.toNat) (h : n.toNat ≤ Config.ramRows) :
    (n - 1).toNat = n.toNat - 1 ∧ (n - 1).toNat ≤ 319 := by
  have hsub : (n - 1).toNat = n.toNat - 1 := BitVec.toNat_sub_of_le h1
  rw [hsub]
  exact ⟨rfl, Nat.sub_le_sub_right h 1⟩

/-- Settles O41: a rotation at most swaps the two dimensions, which both meet R35's bounds. -/
theorem winEndsFitPanel : Obligations.WinEndsFitPanel := by
  unfold Obligations.WinEndsFitPanel
  intro s hinv hlive
  obtain ⟨hw, hw', hh, hh', _⟩ := hinv hlive
  obtain ⟨hwrap, hfit⟩ := lastIndex_of_dimension hw hw'
  obtain ⟨hwrap', hfit'⟩ := lastIndex_of_dimension hh hh'
  rw [currentSize_eq]
  by_cases hrot : s.rot = 0 ∨ s.rot = 2
  · simp only [if_pos hrot]
    exact ⟨hwrap, hfit, hwrap', hfit'⟩
  · simp only [if_neg hrot]
    exact ⟨hwrap', hfit', hwrap, hfit⟩

/-! ### Where the pixels land (R114) -/

/-- Settles O43: `i` is the remainder and `j` the quotient of `j * W' + i` by `W'`, and a row below
`H'` does not wrap. -/
theorem pixelsFillWindowRowMajor : Obligations.PixelsFillWindowRowMajor := by
  unfold Obligations.PixelsFillWindowRowMajor
  intro w h i j hi hj
  obtain ⟨hrow, hcol⟩ : (j * w.toNat + i) / w.toNat = j ∧ (j * w.toNat + i) % w.toNat = i :=
    (Nat.div_mod_unique (Nat.zero_lt_of_lt hi)).mpr ⟨by rw [Nat.mul_comm, Nat.add_comm], hi⟩
  rw [pixelPosition, hcol, hrow, Nat.mod_eq_of_lt hj]

end Sys2Proof.Proofs

/-! The color converter (42_color.md): the expansion of a channel as its byte twice, the packing as
three fields of top bits, and the two bytes of a pixel. -/

namespace Sys2Proof.Proofs

open Sys2Proof.Machine Sys2Proof.Laws

/-! ### The masked expansion of a channel (R131, R132) -/

/-- An expanded channel is its byte twice. -/
theorem expandChannel_eq_append (v : Byte) : expandChannel v = v ++ v := by
  rw [← BitVec.setWidth_eq (v ++ v), BitVec.setWidth_append_eq_shiftLeft_setWidth_or]
  rfl

theorem expandChannel_ushiftRight_eight (v : Byte) : expandChannel v >>> 8 = v.setWidth 16 := by
  rw [expandChannel_eq_append, BitVec.ushiftRight_eq_extractLsb'_of_lt (by decide),
    BitVec.extractLsb'_append_eq_left (a := v) (b := v), BitVec.setWidth_eq_append (by decide)]

/-- The bits above a mask's lower end `m + n`, moved down by `n`, begin at `m`. -/
theorem and_allOnes_shiftLeft_ushiftRight {w : Nat} (x : BitVec w) (m n : Nat) :
    (x &&& BitVec.allOnes w <<< (m + n)) >>> n = x >>> (m + n) <<< m := by
  rw [← BitVec.shiftLeft_ushiftRight, BitVec.shiftLeft_add]
  apply BitVec.eq_of_getLsbD_eq
  intro i hi
  simp only [BitVec.getLsbD_ushiftRight, BitVec.getLsbD_shiftLeft, Nat.add_sub_cancel_left]
  by_cases hin : n + i < w
  · simp [hin]
  · by_cases hm : i < m
    · simp [hm]
    · simp [hin, BitVec.getLsbD_of_ge x (m + n + (i - m)) (by omega)]

/-- A masked expansion, moved down by `n`, is the byte without its `k` low bits at bit `m`. -/
theorem expandChannel_field (v : Byte) {k m n : Nat} (h : m + n = 8 + k) :
    (expandChannel v &&& BitVec.allOnes 16 <<< (m + n)) >>> n = (v.setWidth 16 >>> k) <<< m := by
  rw [and_allOnes_shiftLeft_ushiftRight, h, BitVec.shiftRight_add, expandChannel_ushiftRight_eight]

/-! ### The packing (R133) -/

theorem rgb565_eq_shifts (r8 g8 b8 : Byte) :
    rgb565 r8 g8 b8 = ((r8.setWidth 16 >>> 3) <<< 11) ||| ((g8.setWidth 16 >>> 2) <<< 5)
      ||| (b8.setWidth 16 >>> 3) := by
  have hred : expandChannel r8 &&& 0xF800 = (r8.setWidth 16 >>> 3) <<< 11 :=
    expandChannel_field r8 (k := 3) (m := 11) (n := 0) rfl
  have hgreen : (expandChannel g8 &&& 0xFC00) >>> 5 = (g8.setWidth 16 >>> 2) <<< 5 :=
    expandChannel_field g8 (k := 2) (m := 5) (n := 5) rfl
  have hblue : (expandChannel b8 &&& 0xF800) >>> 11 = b8.setWidth 16 >>> 3 :=
    (expandChannel_field b8 (k := 3) (m := 0) (n := 11) rfl).trans (BitVec.shiftLeft_zero _)
  rw [rgb565, hred, hgreen, hblue]

/-- A byte without its `k` low bits is the number that its other bits write. -/
theorem ushiftRight_setWidth_byte (v : Byte) {k len : Nat} (h : k + len = 8) :
    v.setWidth 16 >>> k = (v.extractLsb' k len).setWidth 16 := by
  ext i hi
  simp only [BitVec.getElem_ushiftRight, BitVec.getLsbD_setWidth, BitVec.getElem_setWidth,
    BitVec.getLsbD_extractLsb']
  by_cases hbit : i < len
  · have hbyte : k + i < 16 := by omega
    simp [hbit, hbyte]
  · simp [hbit, BitVec.getLsbD_of_ge v (k + i) (by omega)]

/-- The packing is the three fields side by side, in the order of the channels. -/
theorem rgb565_eq_append (r8 g8 b8 : Byte) :
    rgb565 r8 g8 b8 = r8.extractLsb' 3 5 ++ g8.extractLsb' 2 6 ++ b8.extractLsb' 3 5 := by
  rw [rgb565_eq_shifts, ushiftRight_setWidth_byte r8 (len := 5) rfl,
    ushiftRight_setWidth_byte g8 (len := 6) rfl, ushiftRight_setWidth_byte b8 (len := 5) rfl,
    ← BitVec.setWidth_append_append_eq_shiftLeft_setWidth_or (w' := 6) (w'' := 5)]
  exact BitVec.setWidth_eq _

/-- Settles O30: the packing is the three fields side by side, so each is read back. -/
theorem cvtTakesTopBits : Obligations.CvtTakesTopBits := by
  unfold Obligations.CvtTakesTopBits
  intro r8 g8 b8
  refine ⟨rgb565_eq_shifts r8 g8 b8, ?_⟩
  rw [rgb565_eq_append]
  refine ⟨?red, ?green, BitVec.extractLsb'_append_eq_right⟩
  case red => rw [BitVec.append_assoc]; exact BitVec.extractLsb'_append_eq_left
  case green =>
    rw [BitVec.extractLsb'_append_eq_of_le (Nat.le_refl 5)]
    exact BitVec.extractLsb'_append_eq_right

/-! ### The request -/

/-- Settles O29: a live CVT is one `OK` response on the accepted state. -/
theorem cvtPacksExpandedChannels : Obligations.CvtPacksExpandedChannels := by
  unfold Obligations.CvtPacksExpandedChannels
  intro r8 g8 b8 a8 s hlive
  rw [exec_eq_runRequest, runRequest_live hlive]
  rfl

/-- Settles O31: the body of CVT does not read alpha. -/
theorem cvtIgnoresAlpha : Obligations.CvtIgnoresAlpha := by
  unfold Obligations.CvtIgnoresAlpha
  intro r8 g8 b8 a8 a8' s
  rw [exec_eq_runRequest, exec_eq_runRequest]
  rfl

/-! ### The two bytes of a pixel (R135) -/

/-- Reading a stream of pixels undoes writing it, one pixel at a time. -/
theorem pixelsOf_be16_append (c : Half) (bs : List Byte) :
    pixelsOf (be16 c ++ bs) = c :: pixelsOf bs :=
  congrArg (· :: pixelsOf bs) (BitVec.extractLsb'_append_extractLsb' (w := 8) (len := 8))

/-- Settles O32: `px` sends the pixel's two bytes, and the high byte above the low one is the
pixel. -/
theorem pixelBytesHighFirst : Obligations.PixelBytesHighFirst :=
  fun c => ⟨rfl, pixelsOf_be16_append c []⟩

end Sys2Proof.Proofs

/-! Rotation and size (43_rotation.md): what ROT writes and emits, its operand modulo 4, the scroll
offset, the addressing-mode bytes, and the size that SIZE answers. -/

namespace Sys2Proof.Proofs

open Sys2Proof.Machine Sys2Proof.Safety Sys2Proof.Laws

/-! ### A request whose frame steps all succeed, behind the writes it makes before them -/

/-- A live request of frame steps that fit, every transaction answered `ok`: ROT's register writes, if
the request is ROT, then the frame steps' events and the response (R78, R90, R155). -/
theorem exec_of_frames_ok {i : Instr} {s : State} (hlive : s.live = true)
    (hne : frameStepsOf s i ≠ []) (hfit : ∀ f ∈ frameStepsOf s i, Fits s.par.maxXfer f)
    (hok : transportOk (2 * (frameStepsOf s i).length) s) :
    exec i s = .next
      { skipAnswers (2 * (frameStepsOf s i).length) (beforeFrames s i) with
        trace := s.trace ++ (frameStepsOf s i).flatMap okEvents
        dc := lastDc s.dc (frameStepsOf s i), phase := .idle
        rspStatus := some (statusCode .ok), rspResult := some 0 } := by
  rw [exec_eq_runRequest, runRequest_live hlive, bodyOf_eq_runFrames hne, runFrames,
    beforeFrames_accept_eq_carry, frames_carry, frames_ok 0 hfit hok, ← respond_carry_beforeFrames]
  rfl

/-! ### The values of a rotation (R151, R153) -/

/-- The choice of `MADCTL_ROT[r]` as one case distinction. -/
theorem madctlRot_eq (m : MadctlBytes) (q : Rotation) :
    madctlRot m q =
      if q = 0 then m.rot0 else if q = 1 then m.rot1 else if q = 2 then m.rot2 else m.rot3 := by
  have hq : ∀ q : Rotation, q = 0 ∨ q = 1 ∨ q = 2 ∨ q = 3 := by decide
  obtain rfl | rfl | rfl | rfl := hq q <;> rfl

theorem scroll_eq (p : ScrollPartner) (w : Half) (q : Rotation) :
    scroll p w q = if q = 1 ∨ q = scrollPartnerRotation p then 320 - w else 0 := by
  simp [scroll, inScrollNz, Config.ramRows]

/-- Settles O33: ROT's four frame steps fit and all succeed, behind its register writes. -/
theorem rotEmitsAddressingModeThenScroll : Obligations.RotEmitsAddressingModeThenScroll := by
  unfold Obligations.RotEmitsAddressingModeThenScroll
  intro r s hlive hmax hok q m sc
  have hrot := exec_of_frames_ok (i := .rot r) hlive (List.cons_ne_nil _ _)
    (rotFrames_fit hmax (rotationModFour r) s) hok
  rw [hrot, frameStepsOf, rotFrames, beforeFrames, setRotation, offsets_eq, madctl, madctlRot_eq,
    scroll_eq]
  rfl

/-! ### What ROT leaves on every answer of the transport (R154, R158) -/

/-- A live ROT writes the rotation and its offsets before its frame steps, which leave them alone. -/
theorem exec_rot_rotation {r : Word} {s t : State} (hlive : s.live = true)
    (ht : exec (.rot r) s = .next t) :
    t.rot = rotationModFour r ∧
      t.rowOff = (offsets s.cfgRowOff s.cfgColOff (rotationModFour r)).1 ∧
      t.colOff = (offsets s.cfgRowOff s.cfgColOff (rotationModFour r)).2 := by
  obtain ⟨hdead, _⟩ | ⟨_, st, res, rfl, _⟩ := exec_cases ht
  · exact Bool.noConfusion (hlive.symm.trans hdead)
  · exact frames_rotation _ 0 (setRotation (rotationModFour r) (accept s))

/-- Settles O34: the offsets are those of R154's table for the rotation that ROT writes, and the
dimensions stay. -/
theorem rotWritesRotationEvenOnFailure : Obligations.RotWritesRotationEvenOnFailure := by
  unfold Obligations.RotWritesRotationEvenOnFailure
  intro r s hlive
  obtain ⟨t, ht⟩ := exec_total (.rot r) s
  obtain ⟨hrot, hrow, hcol⟩ := exec_rot_rotation hlive ht
  obtain ⟨hw, hh, _⟩ := requestKeepsConfiguration _ _ _ ht
  rw [← hrot] at hrow hcol
  refine ⟨t, ht, hrot, ?zero, ?one, ?others, ?size⟩
  case zero | one => intro h; rw [hrow, hcol, h]; exact ⟨rfl, rfl⟩
  case others => rintro (h | h) <;> rw [hrow, hcol, h] <;> exact ⟨rfl, rfl⟩
  case size => rw [currentSize, hw, hh, hrot]; rfl

/-! ### The operand modulo 4 (R157) -/

/-- ROT reads no more of its operand than its rotation. -/
theorem exec_rot_congr {a b : Word} (h : rotationModFour a = rotationModFour b) (s : State) :
    exec (.rot a) s = exec (.rot b) s := by
  change execRot a s = execRot b s
  rw [execRot, execRot, h]

theorem rotationModFour_add_four (a : Word) : rotationModFour (a + 4) = rotationModFour a := by
  have hle : 2 ≤ 32 := by decide
  have hfour : BitVec.setWidth 2 (4 : Word) = 0#2 := rfl
  rw [rotationModFour, rotationModFour, ← BitVec.setWidth_eq_extractLsb' hle,
    ← BitVec.setWidth_eq_extractLsb' hle, BitVec.setWidth_add _ _ hle, hfour, BitVec.add_zero]

/-- Settles O35: adding 4 keeps the two low bits of the operand. -/
theorem rotIsModuloFour : Obligations.RotIsModuloFour :=
  fun a s _ => exec_rot_congr (rotationModFour_add_four a) s

/-! ### The scroll offset (R153) -/

theorem scrollPartnerRotation_ne_one (p : ScrollPartner) : scrollPartnerRotation p ≠ 1 := by
  cases p <;> decide

/-- Settles O36: `320 - CFG_W` does not wrap on a checked width, and 0 is in every range. -/
theorem scrollOffsetOfRotation : Obligations.ScrollOffsetOfRotation := by
  unfold Obligations.ScrollOffsetOfRotation
  intro p w r
  rw [scroll_eq]
  refine ⟨scrollPartnerRotation_ne_one p, fun h => if_pos h, fun h => if_neg h, fun h1 h320 => ?_⟩
  have hsub : (320 - w).toNat = 320 - w.toNat := BitVec.toNat_sub_of_le h320
  constructor
  · split
    · rw [hsub]; omega
    · exact Nat.zero_le 319
  · intro hr
    rw [if_pos (.inl hr), hsub]

/-! ### The addressing-mode bytes of rotations 0 and 1 (R152) -/

theorem ne_iff_exists_getLsbD_ne {w : Nat} {x y : BitVec w} :
    x ≠ y ↔ ∃ k, k < w ∧ x.getLsbD k ≠ y.getLsbD k := by
  simp only [ne_eq, BitVec.eq_of_getLsbD_eq_iff, not_forall, exists_prop]

/-- Setting the bits of `b` in both operands hides their differences within `b` and no other. -/
theorem or_ne_or_iff {w : Nat} (x y b : BitVec w) :
    x ||| b ≠ y ||| b ↔
      ∃ k, k < w ∧ x.getLsbD k ≠ y.getLsbD k ∧ b.getLsbD k = false := by
  rw [ne_iff_exists_getLsbD_ne]
  refine exists_congr fun k => and_congr_right fun _ => ?_
  rw [BitVec.getLsbD_or, BitVec.getLsbD_or]
  cases b.getLsbD k <;> simp

/-- The exclusive or, masked with the complement of `b`, keeps the differences outside `b`. -/
theorem xor_and_not_ne_zero_iff {w : Nat} (x y b : BitVec w) :
    (x ^^^ y) &&& ~~~b ≠ 0 ↔
      ∃ k, k < w ∧ x.getLsbD k ≠ y.getLsbD k ∧ b.getLsbD k = false := by
  rw [ne_iff_exists_getLsbD_ne]
  refine exists_congr fun k => and_congr_right fun hk => ?_
  rw [BitVec.getLsbD_and, BitVec.getLsbD_xor, BitVec.getLsbD_not, BitVec.ofNat_eq_ofNat,
    BitVec.getLsbD_zero]
  simp [hk]

/-- `CFG_BGR = 1` is the harder case: bytes that differ with `MADCTL_BGR` set differ without it. -/
theorem forall_madctl_ne_iff (m : MadctlBytes) :
    (∀ bgr, madctl m bgr 1 ≠ madctl m bgr 0) ↔ m.rot0 ||| m.bgr ≠ m.rot1 ||| m.bgr := by
  constructor
  · intro h
    exact (h true).symm
  · intro h bgr
    cases bgr with
    | true => exact h.symm
    | false =>
      intro heq
      have hrot : m.rot1 = m.rot0 := by simpa [madctl, madctlRot] using heq
      exact h (by rw [hrot])

/-- Settles O37: both conditions say that the two bytes differ in a bit outside `MADCTL_BGR`. -/
theorem madctlBytesDifferOutsideBgr : Obligations.MadctlBytesDifferOutsideBgr := by
  unfold Obligations.MadctlBytesDifferOutsideBgr
  intro m
  refine ⟨(forall_madctl_ne_iff m).trans (or_ne_or_iff _ _ _), ?_⟩
  rw [MadctlBytes.distinct, bne_iff_ne]
  exact xor_and_not_ne_zero_iff _ _ _

/-! ### The size (R160, R161) -/

/-- The result's two halves stand side by side. -/
theorem sizeResult_eq_append (wh : Half × Half) : sizeResult wh = wh.1 ++ wh.2 := by
  rw [← BitVec.setWidth_eq (wh.1 ++ wh.2), BitVec.setWidth_append_eq_shiftLeft_setWidth_or]
  rfl

/-- Settles O38: a live SIZE is one `OK` response with `W'` above `H'`. -/
theorem sizeReportsRotationAwareSize : Obligations.SizeReportsRotationAwareSize := by
  unfold Obligations.SizeReportsRotationAwareSize
  intro s hlive
  have hsize : exec .size s = .next (respond .ok (sizeResult (currentSize s)) (accept s)) := by
    rw [exec_eq_runRequest, runRequest_live hlive]
    rfl
  refine ⟨_, hsize, ?_, ?_⟩ <;> rw [sizeResult_eq_append, currentSize_eq]
  · exact BitVec.extractLsb'_append_eq_left
  · exact BitVec.extractLsb'_append_eq_right

end Sys2Proof.Proofs

/-! Errors and responses (60_exceptions.md): the forms a response can have, the two errors that leave
everything but the response as it was, and the last response, which no request reads. -/

namespace Sys2Proof.Proofs

open Sys2Proof.Machine Sys2Proof.Safety Sys2Proof.Laws

/-! ### The forms of a response (R78, R170, R171, R174) -/

theorem responseOk_ok (r : Word) (s : State) : responseOk (respond .ok r s) :=
  .inr (.inl ⟨r, rfl, rfl⟩)

theorem responseOk_transportError {k : Nat} (hk : k ≤ 4) (stage : Stage) (s : State) :
    responseOk (respond .transportError (failureRecord k stage) s) :=
  .inr (.inr (.inl ⟨k, stage, hk, rfl, rfl⟩))

theorem responseOk_configurationError (s : State) :
    responseOk (respond .configurationError 0 s) :=
  .inr (.inr (.inr (.inl ⟨rfl, rfl⟩)))

theorem responseOk_illegalRequest (s : State) : responseOk (respond .illegalRequest 0 s) :=
  .inr (.inr (.inr (.inr ⟨rfl, rfl⟩)))

/-- A request has at most five frame steps, so a failure record names step 0 to 4. -/
theorem exec_responseOk {i : Instr} {s t : State} (h : exec i s = .next t) : responseOk t := by
  obtain ⟨_, rfl⟩ | ⟨_, _, _, rfl, rfl | ⟨rfl, k, stage, hk, rfl⟩⟩ := exec_cases h
  · exact responseOk_configurationError _
  · exact responseOk_ok _ _
  · have hlength := frameStepsOf_length (accept s) i
    exact responseOk_transportError (by omega) stage _

theorem takeRequest_responseOk {d : Descriptor} {s t : State} (h : takeRequest d s = .next t) :
    responseOk t := by
  obtain ⟨_, _, ⟨_, _, hi⟩ | ⟨_, _, he⟩⟩ := takeRequest_cases h
  · exact exec_responseOk hi
  · obtain ⟨_, rfl⟩ | ⟨_, rfl⟩ := rejectIllegal_cases he
    · exact responseOk_configurationError _
    · exact responseOk_illegalRequest _

/-- Settles O53: a taken request writes one of the four forms, and a reset, alone or abandoning a
request, leaves the registers at `NONE`. -/
theorem stepKeepsResponseForm : Obligations.StepKeepsResponseForm := by
  unfold Obligations.StepKeepsResponseForm
  intro s t h ht
  exact step_keeps (P := responseOk) (fun _ _ h => h)
    (fun _ _ _ hr _ => takeRequest_responseOk hr)
    (fun _ _ _ => .inl ⟨rfl, rfl⟩) (fun _ _ _ _ _ _ _ => .inl ⟨rfl, rfl⟩) h ht

/-! ### The errors with no other effect (R172, R173) -/

/-- Settles O9: a dead block gives one answer to every taken descriptor and to every request. -/
theorem deadBlockAnswersConfigurationError : Obligations.DeadBlockAnswersConfigurationError := by
  unfold Obligations.DeadBlockAnswersConfigurationError
  constructor
  · intro s d rest hp hidle hlive hwf
    rw [step_of_wellFormed hp hidle hwf,
      execDescriptor_dead (s := { s with port := rest }) hlive,
      respond_accept_of_idle (s := { s with port := rest }) hidle]
    rfl
  · intro i s hlive
    rw [exec_eq_runRequest, runRequest_dead hlive]
    rfl

/-- Settles O8: a decode error is a failed check, and a live block answers that with a response
alone. -/
theorem illegalDescriptorWritesResponseOnly : Obligations.IllegalDescriptorWritesResponseOnly := by
  unfold Obligations.IllegalDescriptorWritesResponseOnly
  intro s d rest e hp hidle hlive hwf hd
  rw [step_of_wellFormed hp hidle hwf,
    execDescriptor_live (s := { s with port := rest }) hlive, (decode_eq_error_iff d e).mp hd,
    Option.elim_some, respond_accept_of_idle (s := { s with port := rest }) hidle]
  rfl

/-! ### The last response, which no request reads (R22, R178) -/

/-- The state with other response registers. -/
def withResponse (st : Option Byte) (r : Option Word) (s : State) : State :=
  { s with rspStatus := st, rspResult := r }

/-- The end of a request writes both response registers, whatever they held. -/
theorem endFrames_withResponse (st : Option Byte) (r : Option Word) (s : State)
    (failure : Option Word) :
    endFrames (withResponse st r s, failure) = endFrames (s, failure) := by
  cases failure <;> rfl

/-- The response registers are no part of what frame steps read or write. -/
theorem runFrames_withResponse (st : Option Byte) (r : Option Word) (fs : List FrameStep)
    (s : State) : runFrames fs (withResponse st r s) = runFrames fs s := by
  calc runFrames fs (withResponse st r s)
      = endFrames (withResponse st r (carry s (frames fs 0 s).1), (frames fs 0 s).2) :=
        congrArg endFrames (frames_carry (withResponse st r s) fs 0 s)
    _ = endFrames (carry s (frames fs 0 s).1, (frames fs 0 s).2) := endFrames_withResponse _ _ _ _
    _ = runFrames fs s := congrArg endFrames (frames_carry s fs 0 s).symm

theorem bodyOf_withResponse (st : Option Byte) (r : Option Word) (i : Instr) (s : State) :
    bodyOf i (withResponse st r s) = bodyOf i s := by
  cases i with
  | cvt _ _ _ _ | size => rfl
  | sendc _ | sendd _ | cmd _ | dat _ | win => exact runFrames_withResponse st r _ s
  | rot q => exact runFrames_withResponse st r _ (setRotation (rotationModFour q) s)

/-- Settles O17: a dead block's answer and a live request's body both write the response registers
without reading them. -/
theorem noRequestReadsTheLastResponse : Obligations.NoRequestReadsTheLastResponse := by
  unfold Obligations.NoRequestReadsTheLastResponse
  intro i s st r
  change exec i (withResponse st r s) = exec i s
  rw [exec_eq_runRequest, exec_eq_runRequest]
  cases hlive : s.live with
  | false =>
    rw [runRequest_dead hlive, runRequest_dead (s := withResponse st r s) hlive]
    rfl
  | true =>
    rw [runRequest_live hlive, runRequest_live (s := withResponse st r s) hlive]
    exact congrArg _ (bodyOf_withResponse st r i (accept s))

end Sys2Proof.Proofs

/-! Reset and hazards (70_reset_and_hazards.md): a reset during a request, the response that every
request ends with, the success of what the host keeps within `MAX_XFER`, and the data stream after a
WIN. -/

namespace Sys2Proof.Proofs

open Sys2Proof.Machine Sys2Proof.Safety Sys2Proof.Laws

/-! ### A request that a reset abandons (R190) -/

theorem step_of_port_interrupted {s : State} {d : Descriptor} {n : Nat} {c : CfgInputs}
    {rest : List PortInput} (h : s.port = .interrupted d n c :: rest) :
    step s = takeInterrupted d n c { s with port := rest } := by
  simp [step, takeInput, h]

theorem takeRequest_of_ok {d : Descriptor} {i : Instr} {s : State} (hidle : s.phase = .idle)
    (hwf : d.wellFormed = true) (hd : decode d = .ok i) : takeRequest d s = exec i s := by
  simp only [takeRequest, hidle, hwf, if_true, execDescriptor_of_ok hd]

theorem takeInterrupted_next {d : Descriptor} {s u : State} (n : Nat) (c : CfgInputs)
    (h : takeRequest d s = .next u) : takeInterrupted d n c s = .next (abandonAfter n c s u) := by
  simp only [takeInterrupted, h]

theorem newEvents_eq {s t : State} {es : List Event} (h : t.trace = s.trace ++ es) :
    newEvents s t = es := by
  rw [newEvents, h, List.drop_left]

/-- An abandoned request, by the events `es` that the whole request would have made. -/
theorem abandonAfter_eq {s t : State} {es : List Event} (n : Nat) (c : CfgInputs)
    (h : t.trace = s.trace ++ es) :
    abandonAfter n c s t =
      applyReset c { skipAnswers (min n es.length) s with trace := s.trace ++ es.take n } := by
  rw [← List.length_take, ← newEvents_eq h]
  rfl

/-- Settles O49: the port takes the descriptor, its request runs, and all but the first `n` of the
events it makes are dropped with its response. -/
theorem resetAbandonsRequest : Obligations.ResetAbandonsRequest := by
  unfold Obligations.ResetAbandonsRequest
  intro s t d n c rest i es hp hidle hwf hd ht htrace
  have htake : takeRequest d { s with port := rest } = .next t :=
    (takeRequest_of_ok (s := { s with port := rest }) hidle hwf hd).trans ht
  rw [step_of_port_interrupted hp, takeInterrupted_next n c htake,
    abandonAfter_eq (s := { s with port := rest }) n c htrace]

/-! ### Every request ends with its response (R30, R31, R78) -/

/-- Settles O13: dead or live, a request ends in `respond`. -/
theorem everyRequestEndsWithResponse : Obligations.EveryRequestEndsWithResponse := by
  unfold Obligations.EveryRequestEndsWithResponse
  intro i s
  obtain ⟨t, ht⟩ := exec_total i s
  obtain ⟨_, rfl⟩ | ⟨_, st, r, rfl, _⟩ := exec_cases ht
  · exact ⟨_, _, _, ht, rfl, rfl, rfl⟩
  · exact ⟨_, _, _, ht, rfl, rfl, rfl⟩

/-! ### Frame steps within `MAX_XFER` on a transport that answers `ok` (R56, R197)

A frame step of no bytes makes no write and so uses one answer, not two: what is left of the transport
is bounded from below. -/

/-- Either transaction of a frame step uses one answer. -/
theorem transportOk_of_one_used {n : Nat} {s t : State}
    (hanswers : t.answers = (skipAnswers 1 s).answers) (hdraws : t.draws = (skipAnswers 1 s).draws)
    (h : transportOk (1 + n) s) : transportOk n t := by
  intro k hk
  rw [answerAt_congr hanswers hdraws, answerAt_skipAnswers]
  exact h _ (Nat.add_lt_add_left hk 1)

theorem transportOk_mono {m n : Nat} {s : State} (hmn : m ≤ n) (h : transportOk n s) :
    transportOk m s :=
  fun k hk => h k (Nat.lt_of_lt_of_le hk hmn)

/-- Of the four cases of a frame step (R90) only the two without a failure are left. -/
theorem frame_bounded_ok {n : Nat} {f : FrameStep} {s : State} (step : Nat)
    (hlen : f.2.length ≤ s.par.maxXfer) (hok : transportOk (2 + n) s) :
    ∃ t, frame f.1 f.2 step s = (t, none) ∧ t.par = s.par ∧ transportOk n t := by
  have hline : (answerAt s 0).reply = .ok := hok 0 (by omega)
  have hwrite : writeReply s.par.maxXfer f.2 (answerAt s 1) = .ok :=
    (writeReply_fits hlen).trans (hok 1 (by omega))
  have hrest : transportOk (1 + n) (lineSet f.1 s).1 :=
    transportOk_of_one_used rfl rfl (transportOk_mono (by omega) hok)
  obtain ⟨hfail, _⟩ | ⟨_, _, e⟩ | ⟨_, _, hfail, _⟩ | ⟨_, _, _, e⟩ := frame_cases f.1 f.2 step s
  · exact Reply.noConfusion (hline.symm.trans hfail)
  · exact ⟨_, e, rfl, transportOk_mono (by omega) hrest⟩
  · exact Reply.noConfusion (hwrite.symm.trans hfail)
  · exact ⟨_, e, rfl, transportOk_of_one_used rfl rfl hrest⟩

theorem frames_bounded_ok {n : Nat} {fs : List FrameStep} {s : State} (step : Nat)
    (hlen : ∀ f ∈ fs, f.2.length ≤ s.par.maxXfer) (hok : transportOk (2 * fs.length + n) s) :
    ∃ t, frames fs step s = (t, none) ∧ transportOk n t := by
  induction fs generalizing step s with
  | nil => exact ⟨s, frames_nil step s, transportOk_mono (by simp) hok⟩
  | cons f fs ih =>
    obtain ⟨hf, hfs⟩ := List.forall_mem_cons.mp hlen
    have hok' : transportOk (2 + (2 * fs.length + n)) s :=
      transportOk_mono (by rw [List.length_cons]; omega) hok
    obtain ⟨u, hu, hpar, hrest⟩ := frame_bounded_ok step hf hok'
    rw [frames_cons_ok hu]
    exact ih (step + 1) (hpar ▸ hfs) hrest

theorem runFrames_bounded_ok {n : Nat} {fs : List FrameStep} {s : State}
    (hlen : ∀ f ∈ fs, f.2.length ≤ s.par.maxXfer) (hok : transportOk (2 * fs.length + n) s) :
    (runFrames fs s).rspStatus = some 0 ∧ transportOk n (runFrames fs s) := by
  obtain ⟨t, ht, hrest⟩ := frames_bounded_ok 0 hlen hok
  rw [runFrames, ht]
  exact ⟨rfl, hrest⟩

/-- ROT's register writes touch neither the parameters nor the transport. -/
theorem transportOk_beforeFrames {n : Nat} {s : State} (i : Instr) (h : transportOk n s) :
    transportOk n (beforeFrames (accept s) i) := by
  rw [beforeFrames_accept_eq_carry]
  exact h

theorem beforeFrames_accept_par (s : State) (i : Instr) :
    (beforeFrames (accept s) i).par = s.par := by
  rw [beforeFrames_accept_eq_carry]
  rfl

/-- A live request of frame steps within `MAX_XFER` answers `OK`, and no more than two answers per frame
step are used. -/
theorem exec_bounded_ok {n : Nat} {i : Instr} {s : State} (hlive : s.live = true)
    (hne : frameStepsOf s i ≠ []) (hlen : ∀ f ∈ frameStepsOf s i, f.2.length ≤ s.par.maxXfer)
    (hok : transportOk (2 * (frameStepsOf s i).length + n) s) :
    ∃ t, exec i s = .next t ∧ t.rspStatus = some 0 ∧ transportOk n t := by
  rw [← beforeFrames_accept_par s i] at hlen
  rw [exec_eq_runRequest, runRequest_live hlive, bodyOf_eq_runFrames hne]
  exact ⟨_, rfl, runFrames_bounded_ok hlen (transportOk_beforeFrames i hok)⟩

/-- What the host keeps within `MAX_XFER` are the payloads: the block's own writes carry at most four
bytes (R110, R155). -/
theorem frameStepsOf_bounded {i : Instr} {s : State} (hmax : 4 ≤ s.par.maxXfer)
    (hi : chunkBounded s.par.maxXfer i = true) :
    ∀ f ∈ frameStepsOf s i, f.2.length ≤ s.par.maxXfer := by
  cases i with
  | sendc p | sendd p => exact List.forall_mem_singleton.mpr (of_decide_eq_true hi)
  | cmd b | dat b => exact List.forall_mem_singleton.mpr (Nat.le_trans (by decide : 1 ≤ 4) hmax)
  | rot r => exact fun f hf => (rotFrames_fit (Nat.le_trans (by decide) hmax) _ s f hf).2
  | win => exact fun f hf => (winFrames_fit hmax s f hf).2
  | cvt _ _ _ _ | size => exact List.forall_mem_nil _

/-- A live request without frame steps has nothing that could fail. -/
theorem exec_ok_of_no_frames {i : Instr} {s : State} (hlive : s.live = true)
    (hi : frameStepsOf s i = []) : ∃ t, exec i s = .next t ∧ t.rspStatus = some 0 := by
  obtain ⟨t, ht⟩ := exec_total i s
  refine ⟨t, ht, ?_⟩
  cases i with
  | cvt _ _ _ _ | size => rw [exec_live hlive ht]; rfl
  | sendc _ | sendd _ | cmd _ | dat _ | rot _ | win => exact absurd hi (List.cons_ne_nil _ _)

/-- Settles O44: a request has at most five frame steps, all within `MAX_XFER`, so ten `ok` answers
are enough for it. -/
theorem boundedRequestSucceedsOnOkTransport : Obligations.BoundedRequestSucceedsOnOkTransport := by
  unfold Obligations.BoundedRequestSucceedsOnOkTransport
  intro i s hlive hmax hi hok
  by_cases hframes : frameStepsOf s i = []
  · exact exec_ok_of_no_frames hlive hframes
  · have hcount := frameStepsOf_length s i
    obtain ⟨t, ht, hstatus, _⟩ := exec_bounded_ok (n := 0) hlive hframes
      (frameStepsOf_bounded hmax hi) (transportOk_mono (by omega) hok)
    exact ⟨t, ht, hstatus⟩

/-! ### Requests one after another (R21) -/

theorem execAll_nil_next_iff {s t : State} : execAll [] s = .next t ↔ s = t := by
  rw [execAll, Host.Outcome.next.injEq]

theorem execAll_cons_of_exec {i : Instr} {s u : State} (is : List Instr) (h : exec i s = .next u) :
    execAll (i :: is) s = execAll is u := by
  rw [execAll, h]

theorem execAll_append_next {is js : List Instr} {s t : State}
    (h : execAll (is ++ js) s = .next t) :
    ∃ u, execAll is s = .next u ∧ execAll js u = .next t := by
  induction is generalizing s with
  | nil => exact ⟨s, rfl, h⟩
  | cons i is ih =>
    obtain ⟨v, hv⟩ := exec_total i s
    rw [List.cons_append, execAll_cons_of_exec _ hv] at h
    rw [execAll_cons_of_exec _ hv]
    exact ih h

/-! ### The rotation and the size that data is laid out by (R198, R199) -/

/-- `t` has the rotation and the rotation-aware size of `s`. -/
def SameExtent (s t : State) : Prop := t.rot = s.rot ∧ currentSize t = currentSize s

theorem SameExtent.refl (s : State) : SameExtent s s := ⟨rfl, rfl⟩

theorem SameExtent.trans {s t u : State} (h : SameExtent s t) (h' : SameExtent t u) :
    SameExtent s u :=
  ⟨h'.1.trans h.1, h'.2.trans h.2⟩

/-- Only ROT writes the rotation (R26), and no request writes the dimensions (R24). -/
theorem exec_sameExtent {i : Instr} {s t : State} (hi : ∀ r, i ≠ .rot r)
    (h : exec i s = .next t) : SameExtent s t := by
  obtain ⟨hrot, _⟩ := onlyRotWritesRotation i s t hi h
  obtain ⟨hw, hh, _⟩ := requestKeepsConfiguration i s t h
  exact ⟨hrot, by rw [currentSize, hw, hh, hrot, currentSize]⟩

theorem execAll_sameExtent {is : List Instr} {s t : State} (his : ∀ i ∈ is, ∀ r, i ≠ .rot r)
    (h : execAll is s = .next t) : SameExtent s t := by
  induction is generalizing s with
  | nil => exact execAll_nil_next_iff.mp h ▸ SameExtent.refl s
  | cons i is ih =>
    obtain ⟨hi, his'⟩ := List.forall_mem_cons.mp his
    obtain ⟨u, hu⟩ := exec_total i s
    rw [execAll_cons_of_exec _ hu] at h
    exact (exec_sameExtent hi hu).trans (ih his' h)

theorem ne_rot_of_extendsMemoryWrite {i : Instr} (h : extendsMemoryWrite i = true) (r : Word) :
    i ≠ .rot r := by
  rintro rfl
  exact Bool.noConfusion h

/-- Settles O45: no data request is a ROT. -/
theorem dataStreamKeepsWindowExtent : Obligations.DataStreamKeepsWindowExtent := by
  unfold Obligations.DataStreamKeepsWindowExtent
  intro is s t his ht
  exact execAll_sameExtent (fun i hi => ne_rot_of_extendsMemoryWrite (his i hi)) ht

/-! ### The last WIN before a data request (R198) -/

/-- No request of the list is a WIN or a ROT. -/
def NoWinOrRot (is : List Instr) : Prop := ∀ j ∈ is, j ≠ .win ∧ ∀ r, j ≠ .rot r

/-- The list's last WIN has no ROT after it. -/
def EndsInFreshWindow (is : List Instr) : Prop :=
  ∃ before after, is = before ++ .win :: after ∧ NoWinOrRot after

theorem EndsInFreshWindow.cons {is : List Instr} (j : Instr) (h : EndsInFreshWindow is) :
    EndsInFreshWindow (j :: is) := by
  obtain ⟨before, after, rfl, hafter⟩ := h
  exact ⟨j :: before, after, rfl, hafter⟩

theorem windowFresh_of_data {fresh : Bool} {i : Instr} {is : List Instr}
    (hi : extendsMemoryWrite i = true) (h : windowFresh fresh (i :: is) = true) :
    fresh = true := by
  cases i with
  | sendd _ | dat _ => exact (Bool.and_eq_true_iff.mp h).1
  | sendc _ | cmd _ | cvt _ _ _ _ | rot _ | size | win => exact Bool.noConfusion hi

/-- Only WIN and ROT change whether data may be streamed. -/
theorem windowFresh_tail {fresh : Bool} {j : Instr} {is : List Instr} (hwin : j ≠ .win)
    (hrot : ∀ r, j ≠ .rot r) (h : windowFresh fresh (j :: is) = true) :
    windowFresh fresh is = true := by
  cases j with
  | win => exact absurd rfl hwin
  | rot r => exact absurd rfl (hrot r)
  | sendd _ | dat _ => exact (Bool.and_eq_true_iff.mp h).2
  | sendc _ | cmd _ | cvt _ _ _ _ | size => exact h

/-- Data that may be streamed behind `is` has its WIN in `is`, or had it before and `is` leaves it the
last of the WINs and ROTs. -/
theorem windowFresh_data_cases {fresh : Bool} {is : List Instr} {i : Instr}
    (hi : extendsMemoryWrite i = true) (h : windowFresh fresh (is ++ [i]) = true) :
    EndsInFreshWindow is ∨ fresh = true ∧ NoWinOrRot is := by
  induction is generalizing fresh with
  | nil => exact .inr ⟨windowFresh_of_data hi h, List.forall_mem_nil _⟩
  | cons j is ih =>
    by_cases hwin : j = .win
    · subst hwin
      obtain hend | ⟨_, hnone⟩ := ih (fresh := true) h
      · exact .inl (hend.cons _)
      · exact .inl ⟨[], is, rfl, hnone⟩
    by_cases hrot : ∃ r, j = .rot r
    · obtain ⟨r, rfl⟩ := hrot
      obtain hend | ⟨hfalse, _⟩ := ih (fresh := false) h
      · exact .inl (hend.cons _)
      · exact Bool.noConfusion hfalse
    have hrot' : ∀ r, j ≠ .rot r := fun r e => hrot ⟨r, e⟩
    obtain hend | ⟨hfresh, hnone⟩ := ih (windowFresh_tail hwin hrot' h)
    · exact .inl (hend.cons _)
    · exact .inr ⟨hfresh, List.forall_mem_cons.mpr ⟨⟨hwin, hrot'⟩, hnone⟩⟩

/-- Settles O46: nothing from the last WIN on is a ROT, so the extent stays from where it ran. -/
theorem freshDataUsesLastWindowExtent : Obligations.FreshDataUsesLastWindowExtent := by
  unfold Obligations.FreshDataUsesLastWindowExtent
  intro is i s t hi hfresh ht
  obtain ⟨before, after, rfl, hafter⟩ | ⟨hfalse, _⟩ := windowFresh_data_cases hi hfresh
  · obtain ⟨u, hu, hrest⟩ := execAll_append_next ht
    have hnoRot : ∀ j ∈ Instr.win :: after, ∀ r, j ≠ .rot r :=
      List.forall_mem_cons.mpr ⟨fun _ => Instr.noConfusion, fun j hj => (hafter j hj).2⟩
    exact ⟨before, after, u, rfl, fun j hj => (hafter j hj).1, hu,
      execAll_sameExtent hnoRot hrest⟩
  · exact Bool.noConfusion hfalse

/-! ### A pixel stream (R58, R135, R197) -/

/-- A chunk within `MAX_XFER`, the empty one included, reaches the panel as data and leaves the block
live, its parameters as they were and all but two of the answers. -/
theorem exec_sendd_chunk {n : Nat} {p : List Byte} {s : State} (hlive : s.live = true)
    (hlen : p.length ≤ s.par.maxXfer) (hok : transportOk (2 + n) s) :
    ∃ t, exec (.sendd p) s = .next t ∧ t.live = true ∧ t.par = s.par ∧ transportOk n t ∧
      delivered t.trace = delivered s.trace ++ p.map (fun b => (.driven .high, b)) := by
  obtain ⟨t, ht, hstatus, hrest⟩ := exec_bounded_ok (i := .sendd p) hlive (List.cons_ne_nil _ _)
    (List.forall_mem_singleton.mpr hlen) hok
  obtain ⟨_, hdelivered⟩ := payloadReachesPanelUnderItsLevel p s t hlive hstatus
  obtain ⟨_, _, _, _, _, _, _, hlive', hpar, _⟩ := requestKeepsConfiguration _ s t ht
  exact ⟨t, ht, hlive'.trans hlive, hpar, hrest, hdelivered ht⟩

/-- Chunks one after another deliver their bytes one after another. -/
theorem execAll_sendd_chunks {is : List Instr} {s : State} (hlive : s.live = true)
    (his : ∀ i ∈ is, ∃ p, i = .sendd p ∧ p.length ≤ s.par.maxXfer)
    (hok : transportOk (2 * is.length) s) :
    ∃ t, execAll is s = .next t ∧ delivered t.trace = delivered s.trace ++
      (is.flatMap fun i => (dataPayload i).getD []).map (fun b => (.driven .high, b)) := by
  induction is generalizing s with
  | nil => exact ⟨s, rfl, (List.append_nil _).symm⟩
  | cons i is ih =>
    obtain ⟨⟨p, rfl, hlen⟩, his'⟩ := List.forall_mem_cons.mp his
    have hok' : transportOk (2 + 2 * is.length) s :=
      transportOk_mono (by rw [List.length_cons]; omega) hok
    obtain ⟨u, hu, hlive', hpar, hrest, hfirst⟩ := exec_sendd_chunk hlive hlen hok'
    obtain ⟨t, ht, hothers⟩ := ih hlive' (hpar ▸ his') hrest
    refine ⟨t, (execAll_cons_of_exec is hu).trans ht, ?_⟩
    rw [hothers, hfirst, List.flatMap_cons, List.map_append, List.append_assoc]
    rfl

/-- Reading a stream of pixels undoes writing it. -/
theorem pixelsOf_flatMap_be16 (pixels : List Half) : pixelsOf (pixels.flatMap be16) = pixels := by
  induction pixels with
  | nil => rfl
  | cons c cs ih => rw [List.flatMap_cons, pixelsOf_be16_append, ih]

/-- Settles O47: each chunk is delivered whole under the data level, and the chunks together are the
pixels' bytes. -/
theorem pixelStreamReachesPanelWhole : Obligations.PixelStreamReachesPanelWhole := by
  unfold Obligations.PixelStreamReachesPanelWhole
  intro pixels is s hlive hstream hok
  obtain ⟨hchunks, hbytes⟩ := hstream
  obtain ⟨t, ht, hdelivered⟩ := execAll_sendd_chunks hlive hchunks hok
  exact ⟨t, ht, hbytes ▸ hdelivered, pixelsOf_flatMap_be16 pixels⟩

end Sys2Proof.Proofs

/-! The round trips of the request descriptor (30_encoding.md sections 2 to 4): what passes the
decode checks, and that `encode` and `requestOf` undo each other. -/

namespace Sys2Proof.Proofs

open Sys2Proof.Laws

/-! ### The words of a descriptor and their fields (R72, R74) -/

@[simp] theorem op_controlWord (op : Byte) (n : Nat) (aw : Word) (p : List Byte) :
    (Descriptor.mk (controlWord op n) aw p).op = op :=
  (EncodesLegally.controlWord_fields op n).1

/-- A well-formed descriptor with a zero `RSV` has no other bits in `CW` than `OP` and `LEN`. -/
theorem controlWord_op_length {d : Descriptor} (hwf : d.wellFormed = true) (hrsv : d.rsv = 0) :
    controlWord d.op d.payload.length = d.cw := by
  rw [controlWord, (descriptor_wellFormed_iff d).mp hwf, BitVec.ofNat_toNat, BitVec.setWidth_eq,
    ← hrsv, Descriptor.rsv, Descriptor.op,
    BitVec.extractLsb'_append_extractLsb'_eq_extractLsb' (show 16 = 8 + 8 from rfl)]
  exact BitVec.extractLsb'_append_extractLsb'

theorem payload_eq_nil {d : Descriptor} (hwf : d.wellFormed = true)
    (hlen : d.cw.extractLsb' 16 16 = 0) : d.payload = [] := by
  rw [descriptor_wellFormed_iff, hlen] at hwf
  exact List.eq_nil_of_length_eq_zero hwf

/-- A word without high bytes is its low byte, zero-extended. -/
theorem zero_append_low_byte {w : Word} (h : w.extractLsb' 8 24 = 0) :
    (0 : BitVec 24) ++ w.extractLsb' 0 8 = w := by
  rw [← h]
  exact BitVec.extractLsb'_append_extractLsb'

theorem low_byte_append (high : BitVec 24) (b : Byte) : (high ++ b).extractLsb' 0 8 = b :=
  BitVec.extractLsb'_append_eq_right

/-- A word is its four bytes side by side. -/
theorem append_bytes (w : Word) :
    w.extractLsb' 24 8 ++ w.extractLsb' 16 8 ++ w.extractLsb' 8 8 ++ w.extractLsb' 0 8 = w := by
  rw [BitVec.extractLsb'_append_extractLsb'_eq_extractLsb' (show 24 = 16 + 8 from rfl),
    BitVec.extractLsb'_append_extractLsb'_eq_extractLsb' (show 16 = 8 + 8 from rfl)]
  exact BitVec.extractLsb'_append_extractLsb'

/-- Each of four bytes side by side is read back. -/
theorem bytes_append (r g b a : Byte) :
    (r ++ g ++ b ++ a).extractLsb' 24 8 = r ∧ (r ++ g ++ b ++ a).extractLsb' 16 8 = g ∧
    (r ++ g ++ b ++ a).extractLsb' 8 8 = b ∧ (r ++ g ++ b ++ a).extractLsb' 0 8 = a := by
  refine ⟨?_, ?_, ?_, BitVec.extractLsb'_append_eq_right⟩
  · rw [BitVec.extractLsb'_append_eq_of_le (by decide),
      BitVec.extractLsb'_append_eq_of_le (by decide)]
    exact BitVec.extractLsb'_append_eq_left
  · rw [BitVec.extractLsb'_append_eq_of_le (by decide),
      BitVec.extractLsb'_append_eq_of_le (by decide)]
    exact BitVec.extractLsb'_append_eq_right
  · rw [BitVec.extractLsb'_append_eq_of_le (by decide)]
    exact BitVec.extractLsb'_append_eq_right

/-! ### What passes the decode checks (R80) -/

/-- No decode check of R80 rejects the descriptor: one field per check, in their order. -/
structure PassesChecks (d : Descriptor) : Prop where
  rsv : d.rsv = 0
  op : d.op ∈ legalOps
  len : d.op ∈ noPayloadOps → d.cw.extractLsb' 16 16 = 0
  argument : d.op ∈ noArgumentOps → d.aw = 0
  argumentHigh : d.op ∈ byteArgumentOps → d.aw.extractLsb' 8 24 = 0

/-- A chain of checks passes where its first check and the rest of it do. -/
theorem ite_some_eq_none_iff {α : Type} {c : Prop} [Decidable c] (a : α) (rest : Option α) :
    (if c then some a else rest) = none ↔ ¬ c ∧ rest = none := by
  by_cases h : c <;> simp [h]

theorem decodeCheck_eq_none_iff (d : Descriptor) :
    decodeCheck d.cw d.aw = none ↔ PassesChecks d := by
  simp only [decodeCheck, ite_some_eq_none_iff, ne_eq, not_and, not_not]
  exact ⟨fun ⟨rsv, op, len, argument, high, _⟩ => ⟨rsv, op, len, argument, high⟩,
    fun ⟨rsv, op, len, argument, high⟩ => ⟨rsv, op, len, argument, high, trivial⟩⟩

/-- A descriptor decodes to the request its operation names, or to none. -/
theorem decode_eq_ok_iff (d : Descriptor) (i : Instr) :
    decode d = .ok i ↔ PassesChecks d ∧ requestOf d = i := by
  rw [← decodeCheck_eq_none_iff]
  cases h : decodeCheck d.cw d.aw with
  | some e => simp [decode_of_check_some h]
  | none => simp [decode_of_check_none h]

/-! ### From a request to its descriptor and back -/

/-- A descriptor built from a row of R73 passes the checks where its operands are that row's. -/
theorem passesChecks_controlWord {op : Byte} {n : Nat} {aw : Word} (p : List Byte)
    (hop : op ∈ legalOps) (hlen : op ∈ noPayloadOps → n = 0)
    (hargument : op ∈ noArgumentOps → aw = 0)
    (hhigh : op ∈ byteArgumentOps → aw.extractLsb' 8 24 = 0) :
    PassesChecks ⟨controlWord op n, aw, p⟩ := by
  obtain ⟨_, hrsv, hlength⟩ := EncodesLegally.controlWord_fields op n
  refine ⟨hrsv, ?_, ?_, ?_, ?_⟩ <;> rw [op_controlWord]
  · exact hop
  · exact fun h => hlength.trans (congrArg (BitVec.ofNat 16) (hlen h))
  · exact hargument
  · exact hhigh

theorem passesChecks_encode (i : Instr) : PassesChecks (encode i) := by
  cases i with
  | sendc p | sendd p =>
    exact passesChecks_controlWord p (by decide) (absurd · (by decide)) (fun _ => rfl)
      (absurd · (by decide))
  | cmd c | dat c =>
    exact passesChecks_controlWord [] (by decide) (fun _ => rfl) (absurd · (by decide))
      fun _ => BitVec.extractLsb'_append_eq_left
  | cvt _ _ _ _ | rot _ =>
    exact passesChecks_controlWord [] (by decide) (fun _ => rfl) (absurd · (by decide))
      (absurd · (by decide))
  | size | win =>
    exact passesChecks_controlWord [] (by decide) (fun _ => rfl) (fun _ => rfl)
      (absurd · (by decide))

/-- The operands of R74 are read back from the words that R73 puts them in. -/
theorem requestOf_encode (i : Instr) : requestOf (encode i) = i := by
  cases i with
  | sendc _ | sendd _ | rot _ | size | win => simp [requestOf, encode]
  | cmd c | dat c =>
    simp [requestOf, encode, low_byte_append]
  | cvt r g b a =>
    obtain ⟨hr, hg, hb, ha⟩ := bytes_append r g b a
    simp [requestOf, encode, hr, hg, hb, ha]

/-- Settles O2: the descriptor of any request passes the checks, and the request it names is the one
encoded. (A payload of any length comes back: no check compares it with `LEN`.) -/
theorem decodeOfEncode : Obligations.DecodeOfEncode := by
  unfold Obligations.DecodeOfEncode
  intro i _
  exact (decode_eq_ok_iff _ _).mpr ⟨passesChecks_encode i, requestOf_encode i⟩

/-! ### From a legal descriptor to its request and back -/

/-- Operation number, `AW` and payload determine a legal well-formed descriptor. -/
theorem mk_eq_of_op {d : Descriptor} {op : Byte} {aw : Word} (hwf : d.wellFormed = true)
    (h : PassesChecks d) (hop : d.op = op) (haw : aw = d.aw) :
    ⟨controlWord op d.payload.length, aw, d.payload⟩ = d := by
  rw [← hop, haw, controlWord_op_length hwf h.rsv]

theorem mk_eq_of_noPayload_op {d : Descriptor} {op : Byte} {aw : Word} (hwf : d.wellFormed = true)
    (h : PassesChecks d) (hop : d.op = op) (hnone : op ∈ noPayloadOps) (haw : aw = d.aw) :
    ⟨controlWord op 0, aw, []⟩ = d := by
  have hnil : d.payload = [] := payload_eq_nil hwf (h.len (hop ▸ hnone))
  simpa only [hnil, List.length_nil] using mk_eq_of_op hwf h hop haw

theorem PassesChecks.zero_eq_aw {d : Descriptor} {op : Byte} (h : PassesChecks d)
    (hop : d.op = op) (hmem : op ∈ noArgumentOps) : 0 = d.aw :=
  (h.argument (hop ▸ hmem)).symm

theorem PassesChecks.low_byte_eq_aw {d : Descriptor} {op : Byte} (h : PassesChecks d)
    (hop : d.op = op) (hmem : op ∈ byteArgumentOps) :
    (0 : BitVec 24) ++ d.aw.extractLsb' 0 8 = d.aw :=
  zero_append_low_byte (h.argumentHigh (hop ▸ hmem))

/-- Row by row of R73: what the row's operands leave out of `AW` and the payload, the checks hold at
zero. -/
theorem encode_requestOf {d : Descriptor} (hwf : d.wellFormed = true) (h : PassesChecks d) :
    encode (requestOf d) = d := by
  have hops := h.op
  simp only [legalOps, List.mem_cons, List.not_mem_nil, or_false] at hops
  rcases hops with hop | hop | hop | hop | hop | hop | hop | hop
  · have hreq : requestOf d = .sendc d.payload := by simp [requestOf, hop]
    exact hreq ▸ mk_eq_of_op hwf h hop (h.zero_eq_aw hop (by decide))
  · have hreq : requestOf d = .sendd d.payload := by simp [requestOf, hop]
    exact hreq ▸ mk_eq_of_op hwf h hop (h.zero_eq_aw hop (by decide))
  · have hreq : requestOf d = .cmd (d.aw.extractLsb' 0 8) := by simp [requestOf, hop]
    exact hreq ▸ mk_eq_of_noPayload_op hwf h hop (by decide) (h.low_byte_eq_aw hop (by decide))
  · have hreq : requestOf d = .dat (d.aw.extractLsb' 0 8) := by simp [requestOf, hop]
    exact hreq ▸ mk_eq_of_noPayload_op hwf h hop (by decide) (h.low_byte_eq_aw hop (by decide))
  · have hreq : requestOf d = .cvt (d.aw.extractLsb' 24 8) (d.aw.extractLsb' 16 8)
        (d.aw.extractLsb' 8 8) (d.aw.extractLsb' 0 8) := by simp [requestOf, hop]
    exact hreq ▸ mk_eq_of_noPayload_op hwf h hop (by decide) (append_bytes d.aw)
  · have hreq : requestOf d = .rot d.aw := by simp [requestOf, hop]
    exact hreq ▸ mk_eq_of_noPayload_op hwf h hop (by decide) rfl
  · have hreq : requestOf d = .size := by simp [requestOf, hop]
    exact hreq ▸ mk_eq_of_noPayload_op hwf h hop (by decide) (h.zero_eq_aw hop (by decide))
  · have hreq : requestOf d = .win := by simp [requestOf, hop]
    exact hreq ▸ mk_eq_of_noPayload_op hwf h hop (by decide) (h.zero_eq_aw hop (by decide))

theorem wellFormed_iff_payload_length (i : Instr) :
    i.wellFormed = true ↔ (encode i).payload.length ≤ maxPayload := by
  cases i with
  | sendc _ | sendd _ => exact decide_eq_true_iff
  | cmd _ | dat _ | cvt _ _ _ _ | rot _ | size | win => exact iff_of_true rfl (Nat.zero_le _)

theorem payload_length_le {d : Descriptor} (hwf : d.wellFormed = true) :
    d.payload.length ≤ maxPayload :=
  (descriptor_wellFormed_iff d).mp hwf ▸ Nat.le_of_lt_succ (d.cw.extractLsb' 16 16).isLt

/-- Settles O3: the request is the one the operation names, whose descriptor is the decoded one and
so carries a payload that `LEN` can count. -/
theorem encodeOfDecode : Obligations.EncodeOfDecode := by
  unfold Obligations.EncodeOfDecode
  intro d i hwf hd
  obtain ⟨hpass, rfl⟩ := (decode_eq_ok_iff d i).mp hd
  have hencode : encode (requestOf d) = d := encode_requestOf hwf hpass
  refine ⟨(wellFormed_iff_payload_length _).mpr ?_, hencode⟩
  rw [hencode]
  exact payload_length_le hwf

end Sys2Proof.Proofs
